-- ==== Sys2Proof/Word.lean ====
section
/-! DEFINITION. The words of the rig line (R1, R3): bytes and 16-bit values. -/

namespace Sys2Proof

/-- A byte of a frame as it is sent on the line (R1). -/
abbrev Byte := BitVec 8

/-- A 16-bit value of a frame, and one word of a table page (R3, R193). -/
abbrev Word := BitVec 16

end Sys2Proof
end

