-- ==== Sys2Proof/Config.lean ====
section
/-! DEFINITION. The free values of the model: what a field of a stated width holds when the number the
spec gives for it lies outside that width and the spec does not say what then happens (log 10), and which
of two causes that both hold R77 reports (log 24). Nothing is known of them. -/

namespace Sys2Proof.Config

/-- What a field of one word carries for a number above 65,535 for which no rule states a saturation. -/
opaque outsideWord : Nat → BitVec 16

/-- What an unsigned 32-bit field carries for a number above 4,294,967,295 for which no rule states a saturation. -/
opaque outsideDouble : Nat → BitVec 32

/-- What a signed 32-bit quantity becomes for a number outside −2^31 .. 2^31 − 1. -/
opaque outsideSigned32 : Int → BitVec 32

/-- What a signed 64-bit quantity becomes for a number outside −2^63 .. 2^63 − 1. -/
opaque outsideSigned64 : Int → BitVec 64

/-- Whether a make-up completion with 250 rods in the string and no candidate reports the cause of a full string
(2) rather than that of no candidate (1); R77 gives no order of the two. -/
opaque untrackedAsFull : Bool

end Sys2Proof.Config
end

