-- ==== Sys2Proof/Syntax.lean ====
section
/-! DEFINITION. The commands of the WR460: one constructor for each row of spec/opcode_table.json. -/

namespace Sys2Proof

/-- The two line ports (R1). -/
inductive Port where
  | field
  | cab
  deriving DecidableEq, Repr

/-- A logical channel, 0 to 15 (R25). -/
abbrev Ch := Fin 16

/-- The steps of the part, as spec/opcode_table.json lists them. A request step takes its operands from the
REQUEST frame at the head of the request FIFO (R20, R198), so it has none of its own (log 1). -/
inductive Instr where
  /-- POWER_ON_RESET (R13). -/
  | powerOnReset
  /-- FRAME_ARRIVAL (R9): the bytes of a whole frame have been received on the port. -/
  | frameArrival (port : Port) (bytes : List Byte)
  /-- SHORT_FRAME (R1): the line fell idle on the port before all the expected bytes had come. -/
  | shortFrame (port : Port) (bytes : List Byte)
  /-- LINK_DOWN (R2): the port's link timer has run out. -/
  | linkDown (port : Port)
  /-- CAB_TRANSMIT_BEGIN (R18). -/
  | cabTransmitBegin
  /-- FIELD_TRANSMIT_BEGIN (R19). -/
  | fieldTransmitBegin
  /-- RECORD_ADMISSION (R23). -/
  | recordAdmission
  /-- COMPLETION_RESPONSE_PLACED (R21). -/
  | completionResponsePlaced
  /-- STATUS_PERIOD (R24): the status period timer has reached the status period. -/
  | statusPeriod
  /-- CHANNEL_STALE (R28): the LIVE channel's age has passed its stale time. -/
  | channelStale (c : Ch)
  /-- CHANNEL_LOST (R28): the STALE channel's age has reached 4 × its stale time. -/
  | channelLost (c : Ch)
  /-- SETTLE_EXPIRY (R28): the ABSENT settled channel's age has reached 4 × its stale time. -/
  | settleExpiry (c : Ch)
  /-- SECOND_STEP (R62). -/
  | secondStep
  /-- DWELL_EXPIRY (R59). -/
  | dwellExpiry
  /-- JOB_END_COMPLETION (R152). -/
  | jobEndCompletion
  /-- MODE (R14). -/
  | mode
  /-- LOAD (R194). -/
  | load
  /-- ACTIVATE (R195). -/
  | activate
  /-- READ_TABLE (R197). -/
  | readTable
  /-- RACK_ADD (R67). -/
  | rackAdd
  /-- RACK_REMOVE (R68). -/
  | rackRemove
  /-- ROD_READ (R69). -/
  | rodRead
  /-- STRING_LOAD (R72). -/
  | stringLoad
  /-- STRING_COMMIT (R73). -/
  | stringCommit
  /-- JOB_START (R150). -/
  | jobStart
  /-- JOB_END (R151). -/
  | jobEnd
  /-- SHIFT_CLOSE (R163). -/
  | shiftClose
  /-- MARK (R138). -/
  | mark
  /-- BASELINE (R108). -/
  | baseline
  /-- ADDITION (R109). -/
  | addition
  /-- DOWNTIME (R61). -/
  | downtime
  /-- ACK_CLASS (R173). -/
  | ackClass
  /-- FLUSH_LAG (R124). -/
  | flushLag
  /-- STATUS (R24). -/
  | status
  /-- UNKNOWN_REQUEST (R20). -/
  | unknownRequest
  deriving DecidableEq, Repr

end Sys2Proof
end

