-- ==== Sys2Proof/Decode.lean ====
section
/-! DEFINITION. How many bytes a frame has. And: spec/opcode_table.json gives no row any bits, so no word spells a command (log 21). -/

namespace Sys2Proof

/-- The number of bytes a receiver expects of a frame with this byte 0: 5 + 2 × COUNT (R1, R3). -/
def expectedBytes (byte0 : Byte) : Nat := 5 + 2 * (byte0.extractLsb' 1 4).toNat

/-- The command that a word spells by the table's bits: none, since no row of the table has bits. -/
def decodeTableWord (_nbits _w : Nat) : Option Instr := none

end Sys2Proof
end

