-- ==== Sys2Proof/Machine/State.lean ====
section
/-! DEFINITION. The state of the WR460, unit by unit (00_scope.md, Block overview), as plain data, and its
value right after a power-on reset. -/

namespace Sys2Proof.Machine

/-! ## The line interface -/

/-- A frame of the rig line (R3). COUNT is the length of `values`; the check value is not held, since every
frame the part holds is well-formed (R9) and its check is computed as it is sent. -/
structure Frame where
  kind : BitVec 3
  governed : Bool
  node : BitVec 6
  tag : BitVec 8
  values : List Word
  deriving DecidableEq, Repr

/-- The line mode (R13). -/
inductive LineMode where
  | bypass | observe | govern
  deriving DecidableEq, Repr

/-- A port's link (R2). `timerStart` is the ms at which the link timer last restarted (log 6). -/
structure PortLink where
  up : Bool
  everUp : Bool
  timerStart : Nat
  deriving DecidableEq, Repr

/-- The command roles, in the order of page 16 of CHANNEL (R41). -/
inductive Role where
  | pump1 | pump2 | hoist | slips | tong | handler
  deriving DecidableEq, Repr

/-- A waiting injection: the role it was formed for and its frame (R19, R183). -/
structure Injection where
  role : Role
  frame : Frame
  deriving DecidableEq, Repr

/-- Why a STATUS record is due (R8, R24). -/
inductive StatusCause where
  | period | mode | cls | request
  deriving DecidableEq, Repr

/-- The contents of a record that waits for the record queue: its type (R4) and, frame by frame, the values
that follow the common words. The serial is given at entry (R22). -/
structure RecordBody where
  type : Nat
  frames : List (List Word)
  deriving DecidableEq, Repr

/-- The producers, in admission order (R23). -/
inductive Producer where
  | rod | ticket | strata | event | status
  deriving DecidableEq, Repr

/-- The line interface (chapter 1). `bypassOut` is the BYPASS output; `resetHeld` is the RESET input; `awaitingReset`
says that power has come up and the reset that follows has not completed (R13). `judged` is the model's own: within the step
of an arriving frame, the producers for whose record RECORD_QUEUE_FULL has been judged; [] between steps (R23, log 4). -/
structure LineState where
  fieldLink : PortLink
  cabLink : PortLink
  mode : LineMode
  bypassOut : Bool
  resetHeld : Bool
  awaitingReset : Bool
  forward : List Frame
  downstream : List Frame
  requests : List Frame
  response : Option Frame
  completion : Option Frame
  injections : List Injection
  forwardedRun : Nat
  records : List Frame
  serial : Nat
  highWater : Nat
  statusDue : Option StatusCause
  statusTimerStart : Nat
  fieldOut : Option Frame
  cabOut : Option Frame
  judged : List Producer
  deriving DecidableEq, Repr

/-! ## The channel unit -/

/-- A channel's value state; ABSENT is unsettled or settled (R28). -/
inductive ValueState where
  | absentUnsettled | absentSettled | live | stale | lost
  deriving DecidableEq, Repr

/-- The state of a limit record (R36). -/
inductive LimitState where
  | armed | tripped | rearming
  deriving DecidableEq, Repr

/-- One channel (R26 to R39). `takenAt` is the ms of its last taken sample, from which its age and the Δt of
its notices follow (R27, R28). -/
structure Channel where
  state : ValueState
  value : Option Nat
  mark : Bool
  baseline : Option Nat
  takenAt : Nat
  limit1 : LimitState
  limit2 : LimitState
  deriving DecidableEq, Repr

/-! ## The depth unit -/

/-- The slips view (R44). -/
inductive SlipsView where
  | set | released | unknown
  deriving DecidableEq, Repr

/-- The T mode (R44). -/
inductive TopMode where
  | following | held
  deriving DecidableEq, Repr

/-- The activity states, numbered from 0 as in STATUS records (R8, R59). -/
inductive Activity where
  | untracked | idle | circulating | drilling | reaming | tripping | connection | standby | repair
  deriving DecidableEq, Repr

/-- The downtime declaration (R61). -/
inductive Downtime where
  | none | standby | repair
  deriving DecidableEq, Repr

/-- The depth unit (chapter 3). `dwellStart` is the ms at which the dwell timer started, none while it is
stopped; `secondStart` the ms of the last step of the second timer (log 6). -/
structure DepthState where
  slipsView : SlipsView
  topMode : TopMode
  top : Option Int
  rawBit : Option Nat
  usedBit : Option Nat
  hole : Nat
  conflict : Bool
  buoyed : Nat
  suspended : Option Int
  wobN : Option Nat
  activity : Activity
  candidate : Activity
  dwellStart : Option Nat
  lastRodMove : Option Nat
  downtime : Downtime
  jobClock : Nat
  clockRuns : Bool
  secondStart : Nat
  deriving DecidableEq, Repr

/-! ## The rod unit -/

/-- The state of a rod (R66). -/
inductive RodPlace where
  | rack | string | retired | quarantine
  deriving DecidableEq, Repr

/-- A rod record (R66). The entry mark is held only in state STRING. -/
structure Rod where
  tag : Nat
  cls : Nat
  length : Nat
  place : RodPlace
  fatigue : Nat
  entry : Option Nat
  inspect : Bool
  runs : Nat
  deriving DecidableEq, Repr

/-- The header of the string load buffer (R72). -/
structure LoadHeader where
  count : Nat
  top : Option Int
  deriving DecidableEq, Repr

/-- The rod unit (chapter 4). The string is the list of its rods' tags, bottom to top. Tag page p of the load
buffer is entry p − 1 of `loadPages`, none while its page-loaded flag is clear. -/
structure RodState where
  table : List Rod
  string : List Nat
  valid : Bool
  loadHeader : Option LoadHeader
  loadPages : Vector (Option (List Nat)) 21
  candidate : Option Nat
  fatigueClock : Nat
  length : Nat
  weight : Nat
  steel : Nat
  fatigueLimit : Option Int
  out : List RecordBody
  deriving DecidableEq, Repr

/-! ## The circulation unit -/

/-- The circulation unit (chapter 5). -/
structure CircState where
  rate1 : Option Nat
  rate2 : Option Nat
  pumped : Nat
  flowIn : Nat
  segment : Option Nat
  programmeEnd : Bool
  watching : Bool
  reference : Nat
  adjustment : Int
  deviation : Int
  deriving DecidableEq, Repr

/-! ## The interval unit -/

/-- What closed an interval (R6). -/
inductive Trigger where
  | depthStep | mark | shift | theEnd
  deriving DecidableEq, Repr

/-- The interval unit's part of a STRATA record (R146). `cls` is none for UNCLASSED. -/
structure Strata where
  number : Nat
  top : Nat
  bottom : Nat
  trigger : Trigger
  cls : Option Nat
  energy : Nat
  drillTime : Nat
  revolutions : Nat
  meanWob : Nat
  meanTorque : Nat
  meanSpeed : Nat
  meanPressure : Nat
  meanFlow : Nat
  rop : Nat
  openTime : Nat
  closeTime : Nat
  note : Nat
  loss : Bool
  saturated : Bool
  deriving DecidableEq, Repr

/-- The open interval (R130). -/
structure OpenInterval where
  number : Nat
  top : Nat
  boundary : Option Nat
  step : Option Nat
  minLength : Option Nat
  area : Option Nat
  bounds : Option (List Nat)
  openTime : Nat
  sumT : Nat
  sumRot : Nat
  sumTorque : Nat
  sumSpeed : Nat
  sumWob : Nat
  sumPressure : Nat
  sumFlow : Nat
  sumThrust : Nat
  loss : Bool
  saturated : Bool
  note : Nat
  deriving DecidableEq, Repr

/-- The interval unit (chapter 7). -/
structure IntervalState where
  current : Option OpenInterval
  counter : Nat
  currentClass : Nat
  deriving DecidableEq, Repr

/-! ## The lag unit -/

/-- The lag state of an entry, with the arrival fields it holds in that state (R116). -/
inductive LagStage where
  | waiting
  | due (time : Nat) (returnFlow density : Option Nat) (losses : Bool)
  | forced (time : Nat)
  deriving DecidableEq, Repr

/-- An entry of the lag queue (R116); the bottom depth is that of its strata contents. -/
structure LagEntry where
  strata : Strata
  arrival : Nat
  stage : LagStage
  deriving DecidableEq, Repr

/-- The lag unit (chapter 6). -/
structure LagState where
  queue : List LagEntry
  hold : List Strata
  flushWatch : Bool
  deriving DecidableEq, Repr

/-! ## The billing unit -/

/-- The job state (R148). -/
inductive JobState where
  | noJob | opened | ending
  deriving DecidableEq, Repr

/-- A ticket line (R155). -/
structure TicketLine where
  quantity : Nat
  amount : Nat
  carry : Nat
  saturated : Bool
  deriving DecidableEq, Repr

/-- The ending watch of a JOB_END in progress, with what its completion response will report (R151, R152).
That the FINAL ticket has entered shows in the empty out-buffer. -/
structure EndingWatch where
  ticket : Nat
  finalHole : Nat
  lagDone : Bool
  deriving DecidableEq, Repr

/-- The billing unit (chapter 8). -/
structure BillState where
  job : JobState
  jobNumber : Nat
  startHole : Nat
  ticketNumber : Nat
  ticketOpen : Bool
  openTime : Nat
  openHole : Nat
  lastInterval : Option Nat
  lines : Vector TicketLine 44
  outBuffer : Option RecordBody
  deferred : Bool
  ending : Option EndingWatch
  deriving DecidableEq, Repr

/-! ## The event unit -/

/-- An event source, 0 to 63 (R166). -/
abbrev Source := Fin 64

/-- An alarm class, 0 to 7 (R172). -/
abbrev AlarmClass := Fin 8

/-- A source's account (R167). For an instant source `cond` stays false. -/
structure Account where
  pending : Bool
  count : Nat
  firstTime : Nat
  detail : BitVec 32
  applied : Bool
  cond : Bool
  deriving DecidableEq, Repr

/-- The state of an alarm class (R172). -/
inductive ClassState where
  | inactive | active | ackWait
  deriving DecidableEq, Repr

/-- The event unit (chapter 9). -/
structure EventState where
  accounts : Vector Account 64
  classes : Vector ClassState 8
  deriving DecidableEq, Repr

/-! ## The command governor -/

/-- The holder of the well-centre claim (R188). -/
inductive Holder where
  | none | handler | topDrive
  deriving DecidableEq, Repr

/-- The command governor (chapter 10). `lastBlock` is the last accepted BLOCK_HEIGHT value (R189). -/
structure GovState where
  setpoint1 : Option Nat
  setpoint2 : Option Nat
  holder : Holder
  inZone : Bool
  moving : Bool
  lastBlock : Option Nat
  deriving DecidableEq, Repr

/-! ## The table store -/

/-- A page of a table: 12 words (R193). -/
abbrev Page := Vector Word 12

/-- A table: its active copy where that is valid, its pending copy, its page-loaded mask (R193). -/
structure Table where
  active : Option (List Page)
  pending : List Page
  mask : List Bool
  deriving DecidableEq, Repr

/-- A table number (R193). -/
abbrev TableNo := Fin 9

/-! ## The whole part -/

/-- The state of the part. `now` is the count of ms from power-on reset (R47); `pending` and `noticeOrder` are
the model's own (log 1, log 7), and so is `judged` of the line interface (log 4). -/
structure State where
  now : Nat
  pending : List Instr
  noticeOrder : List Ch
  line : LineState
  channels : Vector Channel 16
  depth : DepthState
  rod : RodState
  circ : CircState
  lag : LagState
  interval : IntervalState
  bill : BillState
  event : EventState
  gov : GovState
  tables : Vector Table 9
  deriving DecidableEq, Repr

/-- No step of the part ends in a fault: the spec gives it no stopping error (INVENTORY, Faults). -/
inductive Fault where
  deriving DecidableEq, Repr

/-- Why a command could be refused by the model. -/
inductive Refusal where
  /-- Raised by `exec` alone, for a command that has no meaning yet: safe. No command is left so. -/
  | notModelled (mnemonic : String)
  deriving DecidableEq, Repr

/-! ## Writing one unit -/

/-- The state with another line interface. -/
def State.setLine (s : State) (x : LineState) : State := { s with line := x }
/-- The state with other channels. -/
def State.setChannels (s : State) (x : Vector Channel 16) : State := { s with channels := x }
/-- The state with another depth unit. -/
def State.setDepth (s : State) (x : DepthState) : State := { s with depth := x }
/-- The state with another rod unit. -/
def State.setRod (s : State) (x : RodState) : State := { s with rod := x }
/-- The state with another circulation unit. -/
def State.setCirc (s : State) (x : CircState) : State := { s with circ := x }
/-- The state with another lag unit. -/
def State.setLag (s : State) (x : LagState) : State := { s with lag := x }
/-- The state with another interval unit. -/
def State.setInterval (s : State) (x : IntervalState) : State := { s with interval := x }
/-- The state with another billing unit. -/
def State.setBill (s : State) (x : BillState) : State := { s with bill := x }
/-- The state with another event unit. -/
def State.setEvent (s : State) (x : EventState) : State := { s with event := x }
/-- The state with another command governor. -/
def State.setGov (s : State) (x : GovState) : State := { s with gov := x }
/-- The state with another table store. -/
def State.setTables (s : State) (x : Vector Table 9) : State := { s with tables := x }

/-! ## Power-on reset -/

/-- A link after reset: DOWN, not yet UP (R2). -/
def PortLink.reset : PortLink := { up := false, everUp := false, timerStart := 0 }

/-- The line interface after reset (R2, R12, R13, R18, R19, R20, R21, R22, R24). -/
def LineState.reset : LineState where
  fieldLink := PortLink.reset
  cabLink := PortLink.reset
  mode := .bypass
  bypassOut := true
  resetHeld := false
  awaitingReset := false
  forward := []
  downstream := []
  requests := []
  response := none
  completion := none
  injections := []
  forwardedRun := 0
  records := []
  serial := 0
  highWater := 0
  statusDue := none
  statusTimerStart := 0
  fieldOut := none
  cabOut := none
  judged := []

/-- A channel after reset (R30): ABSENT unsettled, limits ARMED. -/
def Channel.reset : Channel where
  state := .absentUnsettled
  value := none
  mark := false
  baseline := none
  takenAt := 0
  limit1 := .armed
  limit2 := .armed

/-- The depth unit after reset (R44, R47, R48, R49, R51, R53, R54, R59, R61, R62). -/
def DepthState.reset : DepthState where
  slipsView := .unknown
  topMode := .following
  top := none
  rawBit := none
  usedBit := none
  hole := 0
  conflict := false
  buoyed := 0
  suspended := none
  wobN := none
  activity := .untracked
  candidate := .untracked
  dwellStart := none
  lastRodMove := none
  downtime := .none
  jobClock := 0
  clockRuns := false
  secondStart := 0

/-- The rod unit after reset (R66, R70, R72, R74, R75, R84, R85, R87). -/
def RodState.reset : RodState where
  table := []
  string := []
  valid := false
  loadHeader := none
  loadPages := Vector.replicate 21 none
  candidate := none
  fatigueClock := 0
  length := 0
  weight := 0
  steel := 0
  fatigueLimit := none
  out := []

/-- The circulation unit after reset (R111). -/
def CircState.reset : CircState where
  rate1 := none
  rate2 := none
  pumped := 0
  flowIn := 0
  segment := none
  programmeEnd := false
  watching := false
  reference := 0
  adjustment := 0
  deviation := 0

/-- The lag unit after reset (R128). -/
def LagState.reset : LagState := { queue := [], hold := [], flushWatch := false }

/-- The interval unit after reset (R130). -/
def IntervalState.reset : IntervalState := { current := none, counter := 0, currentClass := 0 }

/-- A ticket line with nothing in it (R148). -/
def TicketLine.empty : TicketLine := { quantity := 0, amount := 0, carry := 0, saturated := false }

/-- The billing unit after reset (R148). -/
def BillState.reset : BillState where
  job := .noJob
  jobNumber := 0
  startHole := 0
  ticketNumber := 0
  ticketOpen := false
  openTime := 0
  openHole := 0
  lastInterval := none
  lines := Vector.replicate 44 TicketLine.empty
  outBuffer := none
  deferred := false
  ending := none

/-- An account after reset (R167): applied is set. -/
def Account.reset : Account where
  pending := false
  count := 0
  firstTime := 0
  detail := 0
  applied := true
  cond := false

/-- The event unit after reset (R167, R172). -/
def EventState.reset : EventState where
  accounts := Vector.replicate 64 Account.reset
  classes := Vector.replicate 8 .inactive

/-- The command governor after reset (R178). -/
def GovState.reset : GovState where
  setpoint1 := none
  setpoint2 := none
  holder := .none
  inZone := false
  moving := false
  lastBlock := none

/-- A table of so many pages after reset (R193): no valid active copy, zero words, a clear mask. -/
def Table.reset (pages : Nat) : Table where
  active := none
  pending := List.replicate pages (Vector.replicate 12 0)
  mask := List.replicate pages false

/-- The table store after reset; the page counts are those of R193. -/
def tablesReset : Vector Table 9 :=
  #v[Table.reset 17, Table.reset 4, Table.reset 4, Table.reset 17, Table.reset 16, Table.reset 1,
    Table.reset 3, Table.reset 5, Table.reset 2]

/-- The part right after a power-on reset (R13 and each unit's own rule), with no command waiting. -/
def State.reset : State where
  now := 0
  pending := []
  noticeOrder := List.finRange 16
  line := LineState.reset
  channels := Vector.replicate 16 Channel.reset
  depth := DepthState.reset
  rod := RodState.reset
  circ := CircState.reset
  lag := LagState.reset
  interval := IntervalState.reset
  bill := BillState.reset
  event := EventState.reset
  gov := GovState.reset
  tables := tablesReset

end Sys2Proof.Machine
end

