-- ==== Sys2Proof/Machine/Frames.lean ====
section
/-! DEFINITION. Frames on the line: the check value, the byte layout in both directions, and the words that
records and responses are written in (R1, R3, R4, R9). -/

namespace Sys2Proof.Machine

/-! ## Numbers as words -/

/-- A number as one word. -/
def w16 (n : Nat) : Word := BitVec.ofNat 16 n

/-- A word of a high and a low byte. -/
def wBytes (hi lo : Nat) : Word := w16 (hi * 256 + lo)

/-- The high byte of a word. -/
def hiByte (w : Word) : Nat := w.toNat / 256

/-- The low byte of a word. -/
def loByte (w : Word) : Nat := w.toNat % 256

/-- A 32-bit quantity as two words, high first (R3). -/
def w32 (n : Nat) : List Word := [w16 (n / 65536), w16 n]

/-- A 64-bit quantity as four words, highest first (R3). -/
def w64 (n : Nat) : List Word := [w16 (n / 281474976710656), w16 (n / 4294967296), w16 (n / 65536), w16 n]

/-- A one-value field that may be absent: all ones (R4). -/
def w16Opt : Option Nat → Word
  | some n => w16 n
  | none => 65535

/-- A two-value field that may be absent: all ones (R4). -/
def w32Opt : Option Nat → List Word
  | some n => w32 n
  | none => [65535, 65535]

/-- A flag as a number. -/
def bit (b : Bool) : Nat := if b then 1 else 0

/-- Two words as an unsigned 32-bit number, high first (R3). -/
def join32 (hi lo : Word) : Nat := hi.toNat * 65536 + lo.toNat

/-- Two words as a signed 32-bit number, high first (R3). -/
def joinSigned32 (hi lo : Word) : Int := (hi ++ lo).toInt

/-- The word a field of one value carries for a number for which no saturation is stated (log 10). -/
def fitWord (n : Nat) : Word := if n ≤ 65535 then w16 n else Config.outsideWord n

/-- The 32 bits an unsigned field carries for a number for which no saturation is stated (log 10). -/
def fitDouble (n : Nat) : BitVec 32 := if n ≤ 4294967295 then BitVec.ofNat 32 n else Config.outsideDouble n

/-- The 32 bits a signed field carries for a number for which no saturation is stated (log 10). -/
def fitSignedBits32 (x : Int) : BitVec 32 :=
  if -2147483648 ≤ x ∧ x ≤ 2147483647 then BitVec.ofInt 32 x else Config.outsideSigned32 x

/-- A number held as signed 32-bit: itself where it fits (log 10). -/
def fitSigned32 (x : Int) : Int :=
  if -2147483648 ≤ x ∧ x ≤ 2147483647 then x else (Config.outsideSigned32 x).toInt

/-- A number held as signed 64-bit: itself where it fits (log 10). -/
def fitSigned64 (x : Int) : Int :=
  if -9223372036854775808 ≤ x ∧ x ≤ 9223372036854775807 then x else (Config.outsideSigned64 x).toInt

/-- 32 bits as two words, high first (R3). -/
def wordsOf32 (b : BitVec 32) : List Word := [b.extractLsb' 16 16, b.extractLsb' 0 16]

/-! ## The check value (R3) -/

/-- The bits of a byte, most significant first. -/
def bitsOf (b : Byte) : List Bool := (List.range 8).map fun i => b.getLsbD (7 - i)

/-- One step of the division by x^16 + x^15 + x^2 + 1: the next bit is shifted into the remainder. -/
def crcBit (r : BitVec 16) (b : Bool) : BitVec 16 :=
  let shifted := (r <<< 1) ||| (BitVec.ofBool b).zeroExtend 16
  if r.msb then shifted ^^^ 0x8005 else shifted

/-- The remainder of the division of a bit sequence, the register starting at 0. -/
def crcBits (bs : List Bool) : BitVec 16 := bs.foldl crcBit 0

/-- The check value of a run of bytes: the remainder of its bits followed by sixteen zero bits (R3). -/
def crc (bytes : List Byte) : Word := crcBits (bytes.flatMap bitsOf ++ List.replicate 16 false)

/-! ## The byte layout (R3) -/

/-- A word as two bytes, high byte first. -/
def wordBytes (w : Word) : List Byte := [w.extractLsb' 8 8, w.extractLsb' 0 8]

/-- Byte 0 of a frame: KIND, COUNT, GOVERNED. -/
def byte0 (f : Frame) : Byte := f.kind ++ BitVec.ofNat 4 f.values.length ++ BitVec.ofBool f.governed

/-- The bytes of a frame before its check. -/
def bodyBytes (f : Frame) : List Byte :=
  byte0 f :: ((0 : BitVec 2) ++ f.node) :: f.tag :: f.values.flatMap wordBytes

/-- A frame as the bytes of its transmission, the check last (R3). -/
def frameBytes (f : Frame) : List Byte := bodyBytes f ++ wordBytes (crc (bodyBytes f))

/-- Bytes taken two by two as words, high byte first; a single last byte is left out. -/
def bytesToWords : List Byte → List Word
  | a :: b :: rest => (a ++ b) :: bytesToWords rest
  | _ => []

/-- The frame that a received run of bytes is, or none where it fails the check: a short frame, a wrong CRC, or
upper two bits of the NODE byte that are not zero (R9). -/
def parseFrame : List Byte → Option Frame
  | b0 :: b1 :: b2 :: rest =>
    let count := (b0.extractLsb' 1 4).toNat
    let data := rest.take (2 * count)
    let check := rest.drop (2 * count)
    if rest.length = 2 * count + 2 ∧ b1.extractLsb' 6 2 = 0 ∧
        check = wordBytes (crc (b0 :: b1 :: b2 :: data)) then
      some { kind := b0.extractLsb' 5 3, governed := b0.getLsbD 0, node := b1.extractLsb' 0 6, tag := b2,
             values := bytesToWords data }
    else none
  | _ => none

/-- A run of bytes without idle time, cut into frames: the first byte after a frame's last expected byte is
byte 0 of a new frame (R1). `n` bounds the number of frames. -/
def splitRun : Nat → List Byte → List (List Byte)
  | _, [] => []
  | 0, _ => []
  | n + 1, b :: bs =>
    (b :: bs).take (expectedBytes b) :: splitRun n ((b :: bs).drop (expectedBytes b))

/-! ## Kinds -/

/-- KIND SAMPLE (R3). -/
def kindSample : BitVec 3 := 1
/-- KIND COMMAND (R3). -/
def kindCommand : BitVec 3 := 2
/-- KIND REQUEST (R3). -/
def kindRequest : BitVec 3 := 4
/-- KIND RESPONSE (R3). -/
def kindResponse : BitVec 3 := 5
/-- KIND RECORD (R3). -/
def kindRecord : BitVec 3 := 6

/-- A value of a frame as a number; a value the frame does not carry reads as 0, which no rule asks for. -/
def Frame.val (f : Frame) (i : Nat) : Nat := (f.values.getD i 0).toNat

/-- Two values of a frame as an unsigned 32-bit number, high first. -/
def Frame.val32 (f : Frame) (i : Nat) : Nat := join32 (f.values.getD i 0) (f.values.getD (i + 1) 0)

/-- Two values of a frame as a signed 32-bit number, high first. -/
def Frame.valSigned32 (f : Frame) (i : Nat) : Int := joinSigned32 (f.values.getD i 0) (f.values.getD (i + 1) 0)

/-! ## Frames the part originates (R4) -/

/-- The frames of a record under its serial: value 0 is the serial and the frame's index, and in frame 0
value 1 the frame count (R4). -/
def recordFrames (serial : Nat) (r : RecordBody) : List Frame :=
  r.frames.mapIdx fun i vs =>
    { kind := kindRecord, governed := true, node := 0, tag := BitVec.ofNat 8 r.type,
      values := wBytes serial i :: (if i = 0 then [w16 r.frames.length] else []) ++ vs }

end Sys2Proof.Machine
end

