-- ==== Sys2Proof/Machine/Operands.lean ====
section
/-! DEFINITION. The operands that steps read from the nine tables: each table's fields at the pages and words the
spec gives them (R40, R41, R64, R83, R92, R112, R129, R153, R171, R193, R196). -/

namespace Sys2Proof.Machine

/-! ## Table numbers (R193) -/

/-- CHANNEL. -/
def tChannel : TableNo := 0
/-- ROUTE. -/
def tRoute : TableNo := 1
/-- PROFILE. -/
def tProfile : TableNo := 2
/-- MUDPROG. -/
def tMudprog : TableNo := 3
/-- RODCLASS. -/
def tRodclass : TableNo := 4
/-- CLASSIFY. -/
def tClassify : TableNo := 5
/-- FATIGUE. -/
def tFatigue : TableNo := 6
/-- TARIFF. -/
def tTariff : TableNo := 7
/-- SETTINGS. -/
def tSettings : TableNo := 8

/-! ## Words of pages -/

/-- A word of a page of a copy. A page or word that does not exist reads as 0; no rule asks for one. -/
def pageWordBits (pages : List Page) (p w : Nat) : Word :=
  match pages[p]? with
  | some page => page[w]?.getD 0
  | none => 0

/-- A word of a page as a number. -/
def pageWord (pages : List Page) (p w : Nat) : Nat := (pageWordBits pages p w).toNat

/-- Two words of a page as an unsigned 32-bit number, high first. -/
def pageWord32 (pages : List Page) (p w : Nat) : Nat := pageWord pages p w * 65536 + pageWord pages p (w + 1)

/-- Two words of a page as a signed 32-bit number, high first. -/
def pageSigned32 (pages : List Page) (p w : Nat) : Int :=
  joinSigned32 (pageWordBits pages p w) (pageWordBits pages p (w + 1))

/-- Word i of a copy whose pages of 12 words are read one after another. -/
def linearWord (pages : List Page) (i : Nat) : Nat := pageWord pages (i / 12) (i % 12)

/-- The 32-bit number at words i and i + 1 of a copy read page after page. -/
def linearWord32 (pages : List Page) (i : Nat) : Nat := linearWord pages i * 65536 + linearWord pages (i + 1)

/-- The active copy of a table, none while it is invalid (R193). -/
def activeCopy (s : State) (t : TableNo) : Option (List Page) := s.tables[t].active

/-- Whether a table has a valid active copy. -/
def isActive (s : State) (t : TableNo) : Bool := (activeCopy s t).isSome

/-- The pages of the active copy; no page while it is invalid. -/
def activePages (s : State) (t : TableNo) : List Page := (activeCopy s t).getD []

/-! ## SETTINGS (R196) -/

/-- The fields of a SETTINGS copy (R43, R88, R129, R177, R24). -/
structure Settings where
  topDriveOffset : Int
  rotationThreshold : Nat
  wobThreshold : Nat
  maxAdvance : Nat
  onBottomBand : Nat
  pumpOnThreshold : Nat
  tripWindow : Nat
  dwellTime : Nat
  blockWeight : Nat
  overpullLimit : Nat
  displacement1 : Nat
  efficiency1 : Nat
  displacement2 : Nat
  efficiency2 : Nat
  pressureHysteresis : Nat
  intervalStep : Nat
  minClassifyLength : Nat
  handlerClearance : Nat
  lowerMargin : Nat
  slipsReleasePercent : Nat
  statusPeriod : Nat
  deriving DecidableEq, Repr

/-- The fields of the two pages of SETTINGS, at the words of R196. -/
def readSettings (pages : List Page) : Settings where
  topDriveOffset := (pageWordBits pages 0 0).toInt
  rotationThreshold := pageWord pages 0 1
  wobThreshold := pageWord pages 0 2
  maxAdvance := pageWord pages 0 3
  onBottomBand := pageWord pages 0 4
  pumpOnThreshold := pageWord pages 0 5
  tripWindow := pageWord pages 0 6
  dwellTime := pageWord pages 0 7
  blockWeight := pageWord32 pages 0 8
  overpullLimit := pageWord32 pages 0 10
  displacement1 := pageWord pages 1 0
  efficiency1 := pageWord pages 1 1
  displacement2 := pageWord pages 1 2
  efficiency2 := pageWord pages 1 3
  pressureHysteresis := pageWord pages 1 4
  intervalStep := pageWord pages 1 5
  minClassifyLength := pageWord pages 1 6
  handlerClearance := pageWord pages 1 7
  lowerMargin := pageWord pages 1 8
  slipsReleasePercent := pageWord pages 1 9
  statusPeriod := pageWord pages 1 10

/-- The fields of the active SETTINGS, none while it has no valid active copy. -/
def settings (s : State) : Option Settings := (activeCopy s tSettings).map readSettings

/-! ## CHANNEL (R40, R41) -/

/-- The kind of a channel (R25). -/
inductive ChannelKind where
  | counter | analog | discrete | rodTag
  deriving DecidableEq, Repr

/-- The kinds of the sixteen channels (R25). -/
def channelKind (c : Ch) : ChannelKind :=
  match c.val with
  | 0 | 1 | 5 | 15 => .counter
  | 10 | 13 => .discrete
  | 14 => .rodTag
  | _ => .analog

/-- The range of an analog channel (R25). -/
def channelRange (c : Ch) : Nat × Nat :=
  match c.val with
  | 2 | 7 | 9 | 11 => (0, 40000)
  | 3 => (0, 1000)
  | 4 => (0, 60000)
  | 6 => (0, 65535)
  | 8 => (0, 400)
  | 12 => (800, 2400)
  | _ => (0, 65535)

/-- The span of an analog channel: the upper end of its range less the lower (R25). -/
def channelSpan (c : Ch) : Nat := (channelRange c).2 - (channelRange c).1

/-- The highest code of a discrete channel (R33). -/
def discreteMax (c : Ch) : Nat := if c = 10 then 1 else 3

/-- The source of a bound channel: node, tag, value index (R26, R40). -/
structure Binding where
  node : Nat
  tag : Nat
  index : Nat
  deriving DecidableEq, Repr

/-- A channel's binding on a CHANNEL copy, none where its page gives node 0 (R26). -/
def bindingIn (pages : List Page) (c : Ch) : Option Binding :=
  let node := pageWord pages c 0 / 256
  if node = 0 then none
  else some { node := node, tag := pageWord pages c 1 / 256, index := pageWord pages c 0 % 256 }

/-- A channel's binding in force; no channel is bound while no CHANNEL table is active (R26). -/
def binding (s : State) (c : Ch) : Option Binding := bindingIn (activePages s tChannel) c

/-- The stale time of a channel's page, ms (R40). -/
def staleTime (s : State) (c : Ch) : Nat := pageWord (activePages s tChannel) c 2

/-- The jump limit of a counter's page (R40). -/
def jumpLimit (s : State) (c : Ch) : Nat := pageWord (activePages s tChannel) c 3

/-- raw_lo of an analog page (R40). -/
def rawLo (s : State) (c : Ch) : Nat := pageWord (activePages s tChannel) c 3

/-- raw_hi of an analog page (R40). -/
def rawHi (s : State) (c : Ch) : Nat := pageWord (activePages s tChannel) c 4

/-- eng_lo of an analog page (R40). -/
def engLo (s : State) (c : Ch) : Int := pageSigned32 (activePages s tChannel) c 5

/-- eng_hi of an analog page (R40). -/
def engHi (s : State) (c : Ch) : Int := pageSigned32 (activePages s tChannel) c 7

/-- The two limit records of a channel (R36). -/
inductive LimitNo where
  | l1 | l2
  deriving DecidableEq, Repr

/-- A limit's control (R36). -/
inductive LimitControl where
  | off | above | below
  deriving DecidableEq, Repr

/-- The event source of a channel's L1, none on a channel without limits; L2's is the next (R36). -/
def limitBase (c : Ch) : Option Nat :=
  match c.val with
  | 2 => some 16
  | 3 => some 18
  | 4 => some 20
  | 6 => some 22
  | 7 => some 24
  | 8 => some 26
  | 9 => some 28
  | 12 => some 30
  | _ => none

/-- The event source of a limit record (R36). -/
def limitSource (c : Ch) (l : LimitNo) : Option Source :=
  (limitBase c).map fun n => Fin.ofNat 64 (match l with | .l1 => n | .l2 => n + 1)

/-- The control number of a limit on a copy's page: L1 + 4 × L2 in the low byte of word 1 (R40). -/
def limitControlNumber (pages : List Page) (c : Ch) : LimitNo → Nat
  | .l1 => pageWord pages c 1 % 256 % 4
  | .l2 => pageWord pages c 1 % 256 / 4

/-- The control of a limit on a copy; off on an unbound channel's page, whose words after word 0 are ignored,
and on a channel that has no limits (R36, R40). -/
def limitControlIn (pages : List Page) (c : Ch) (l : LimitNo) : LimitControl :=
  if bindingIn pages c = none ∨ limitBase c = none then .off
  else match limitControlNumber pages c l with
    | 1 => .above
    | 2 => .below
    | _ => .off

/-- The threshold of a limit on a copy (R40). -/
def limitThresholdIn (pages : List Page) (c : Ch) : LimitNo → Nat
  | .l1 => pageWord pages c 9
  | .l2 => pageWord pages c 10

/-- The hysteresis code of a limit on a copy (R40). -/
def hysteresisCodeIn (pages : List Page) (c : Ch) : LimitNo → Nat
  | .l1 => pageWord pages c 11 / 256
  | .l2 => pageWord pages c 11 % 256

/-- A limit's hysteresis in engineering units: floor(h × span / 1,000) (R36). -/
def limitHysteresisIn (pages : List Page) (c : Ch) (l : LimitNo) : Nat :=
  hysteresisCodeIn pages c l * channelSpan c / 1000

/-- The roles in the order of page 16 (R41). -/
def allRoles : List Role := [.pump1, .pump2, .hoist, .slips, .tong, .handler]

/-- The word of page 16 that binds a role (R41). -/
def roleIndex : Role → Nat
  | .pump1 => 0
  | .pump2 => 1
  | .hoist => 2
  | .slips => 3
  | .tong => 4
  | .handler => 5

/-- A role's node and tag on a CHANNEL copy, none where unbound (R41). -/
def roleBindingIn (pages : List Page) (r : Role) : Option (Nat × Nat) :=
  let w := pageWord pages 16 (roleIndex r)
  if w / 256 = 0 then none else some (w / 256, w % 256)

/-- A role's node and tag in force (R41). -/
def roleBinding (s : State) (r : Role) : Option (Nat × Nat) := roleBindingIn (activePages s tChannel) r

/-! ## ROUTE (R171) -/

/-- The route byte of a source on a copy. -/
def routeByteIn (pages : List Page) (src : Nat) : Nat :=
  let w := pageWord pages (src / 24) (src % 24 / 2)
  if src % 2 = 0 then w / 256 else w % 256

/-- The action byte of a class on a copy. -/
def actionByteIn (pages : List Page) (k : Nat) : Nat :=
  let w := pageWord pages 2 (8 + k / 2)
  if k % 2 = 0 then w / 256 else w % 256

/-- The level of a class on a copy. -/
def levelIn (pages : List Page) (k : Nat) : Nat := pageWord pages 3 k / 256

/-- Whether a class is latched on a copy. -/
def latchedIn (pages : List Page) (k : Nat) : Bool := pageWord pages 3 k % 256 == 1

/-- The class a source is routed to in the active ROUTE; none for NONE and while ROUTE has no valid active
copy (R171). -/
def routeOf (s : State) (src : Source) : Option AlarmClass :=
  match activeCopy s tRoute with
  | none => none
  | some pages =>
    let b := routeByteIn pages src
    if h : b < 8 then some ⟨b, h⟩ else none

/-- The action byte of a class in the active ROUTE, 0 while it has none (R171). -/
def actionByte (s : State) (k : AlarmClass) : Nat := actionByteIn (activePages s tRoute) k

/-- Whether a class is latched in the active ROUTE (R171). -/
def latched (s : State) (k : AlarmClass) : Bool := latchedIn (activePages s tRoute) k

/-! ## PROFILE (R112) -/

/-- A section of the hole: its bottom depth, mm, and its annular capacity, mL/m (R112). -/
structure Section where
  bottom : Nat
  capacity : Nat
  deriving DecidableEq, Repr

/-- Section k of a copy: page 1 + floor(k / 4), from word 3 × (k mod 4) (R112). -/
def sectionIn (pages : List Page) (k : Nat) : Section where
  bottom := pageWord32 pages (1 + k / 4) (3 * (k % 4))
  capacity := pageWord pages (1 + k / 4) (3 * (k % 4) + 2)

/-- The bit face area of a copy, mm² (R112). -/
def bitAreaIn (pages : List Page) : Nat := pageWord32 pages 0 0

/-- The surface volume of a copy, mL (R112). -/
def surfaceVolumeIn (pages : List Page) : Nat := pageWord32 pages 0 2

/-- The section count of a copy (R112). -/
def sectionCountIn (pages : List Page) : Nat := pageWord pages 0 4

/-- The sections in use of a copy, from the rig floor down (R112). -/
def sectionsIn (pages : List Page) : List Section := (List.range (sectionCountIn pages)).map (sectionIn pages)

/-! ## MUDPROG (R92) -/

/-- The fields of a segment page (R92). -/
structure Segment where
  used : Nat
  endDepth : Nat
  link : Nat
  maxRate : Nat
  ceiling : Nat
  holdRate : Nat
  gainThreshold : Nat
  lossThreshold : Nat
  minReturn : Nat
  densityMin : Nat
  densityMax : Nat
  deriving DecidableEq, Repr

/-- Segment id of a copy: page id + 1 (R92). -/
def segmentIn (pages : List Page) (id : Nat) : Segment where
  used := pageWord pages (id + 1) 0
  endDepth := pageWord32 pages (id + 1) 1
  link := pageWord pages (id + 1) 3
  maxRate := pageWord pages (id + 1) 4
  ceiling := pageWord pages (id + 1) 5
  holdRate := pageWord pages (id + 1) 6
  gainThreshold := pageWord pages (id + 1) 7
  lossThreshold := pageWord pages (id + 1) 8
  minReturn := pageWord pages (id + 1) 9
  densityMin := pageWord pages (id + 1) 10
  densityMax := pageWord pages (id + 1) 11

/-- The entry id of a copy's header (R92). -/
def entrySegmentIn (pages : List Page) : Nat := pageWord pages 0 0

/-- The link value END (R92). -/
def linkEnd : Nat := 255

/-- The active segment's fields, none while no segment is active (R96). -/
def activeSegment (s : State) : Option Segment := s.circ.segment.map (segmentIn (activePages s tMudprog))

/-! ## RODCLASS (R64) -/

/-- The fields of a rod class (R64). -/
structure RodClass where
  kind : Nat
  weight : Nat
  steel : Nat
  torqueMin : Nat
  torqueMax : Nat
  threshold : Nat
  deriving DecidableEq, Repr

/-- The class on page c of a copy (R64). -/
def rodClassIn (pages : List Page) (c : Nat) : RodClass where
  kind := pageWord pages c 0
  weight := pageWord pages c 1
  steel := pageWord pages c 2
  torqueMin := pageWord pages c 3
  torqueMax := pageWord pages c 4
  threshold := pageWord32 pages c 5

/-- A class in the active RODCLASS. -/
def rodClass (s : State) (c : Nat) : RodClass := rodClassIn (activePages s tRodclass) c

/-- The kind BIT (R64). -/
def kindBit : Nat := 0

/-- A weighted kilo-revolution in weighted rpm·ms (R64). -/
def kiloRev : Nat := 60000000

/-- A class's retire threshold in weighted rpm·ms (R64). -/
def thresholdInternal (s : State) (c : Nat) : Nat := (rodClass s c).threshold * kiloRev

/-! ## CLASSIFY, FATIGUE (R129, R83) -/

/-- The seven class boundaries of a copy, MPa (R129). -/
def boundariesIn (pages : List Page) : List Nat := (List.range 7).map (pageWord pages 0)

/-- The torque band width of a copy, N·m (R83). -/
def bandWidthIn (pages : List Page) : Nat := pageWord pages 0 0

/-- Weight number i of a copy: two to a word from word 1 of page 0 on, the first in the high byte (R83). -/
def fatigueWeightIn (pages : List Page) (i : Nat) : Nat :=
  let w := linearWord pages (1 + i / 2)
  if i % 2 = 0 then w / 256 else w % 256

/-! ## TARIFF (R153) -/

/-- The class rate of class c, minor units per metre. -/
def classRateIn (pages : List Page) (c : Nat) : Nat := linearWord32 pages (2 * c)

/-- Depth-band boundary k, mm. -/
def bandBoundaryIn (pages : List Page) (k : Nat) : Nat := linearWord32 pages (16 + 2 * k)

/-- The band factor of band k, ‰. -/
def bandFactorIn (pages : List Page) (k : Nat) : Nat := linearWord pages (22 + k)

/-- The loss surcharge, minor units per metre. -/
def lossSurchargeIn (pages : List Page) : Nat := linearWord32 pages 26

/-- The time rate of an activity state, minor units per hour. -/
def timeRateIn (pages : List Page) (state : Nat) : Nat := linearWord32 pages (28 + 2 * state)

/-- The water rate, minor units per m³. -/
def waterRateIn (pages : List Page) : Nat := linearWord32 pages 46

/-- The rod retirement charge, minor units per rod. -/
def rodChargeIn (pages : List Page) : Nat := linearWord32 pages 48

/-- The depth band of an interval's top (R154). -/
def depthBandIn (pages : List Page) (top : Nat) : Nat :=
  if top < bandBoundaryIn pages 0 then 0
  else if top < bandBoundaryIn pages 1 then 1
  else if top < bandBoundaryIn pages 2 then 2
  else 3

/-- The effective metre rate of class c in band k: floor(class rate × band factor / 1,000) (R154). -/
def metreRateIn (pages : List Page) (c k : Nat) : Nat := classRateIn pages c * bandFactorIn pages k / 1000

end Sys2Proof.Machine
end

