-- ==== Sys2Proof/Machine/Flags.lean ====
section
/-! DEFINITION. What the units read of one another: held channel values, conditions, predicates and the actions in
force, each a function of the state. -/

namespace Sys2Proof.Machine

/-! ## Channels -/

/-- The value of a channel while it is LIVE or STALE; otherwise it is absent (R28). -/
def held (s : State) (c : Ch) : Option Nat :=
  match s.channels[c].state with
  | .live | .stale => s.channels[c].value
  | _ => none

/-- Whether a channel is LIVE. -/
def isLive (s : State) (c : Ch) : Bool := s.channels[c].state == .live

/-- Whether a value state is ABSENT, settled or not (R28). -/
def ValueState.isAbsent : ValueState → Bool
  | .absentUnsettled | .absentSettled => true
  | _ => false

/-- The value state as STATUS records number it (R8). -/
def ValueState.code : ValueState → Nat
  | .absentUnsettled | .absentSettled => 0
  | .live => 1
  | .stale => 2
  | .lost => 3

/-- A channel's age: the time since its last taken sample (R28). -/
def channelAge (s : State) (c : Ch) : Nat := s.now - s.channels[c].takenAt

/-- The condition of CH_FAULT_c as R31 defines it. -/
def channelFault (s : State) (c : Ch) : Bool :=
  if c = 11 then false
  else match s.channels[c].state with
    | .stale | .lost => true
    | .live => s.channels[c].mark
    | _ => false

/-! ## The BYPASS output (R13) -/

/-- The part is in reset: RESET is held, or power has come up and the reset that follows has not completed (R13). -/
def inReset (s : State) : Bool := s.line.resetHeld || s.line.awaitingReset

/-- The BYPASS output as R13 gives it: asserted in BYPASS and in reset. -/
def bypassAsserted (s : State) : Bool := s.line.mode == .bypass || inReset s

/-- Drive the BYPASS output as R13 gives it. -/
def driveBypass (s : State) : State := s.setLine { s.line with bypassOut := bypassAsserted s }

/-! ## Conditions of event sources (R169) -/

/-- The condition of a source as last reported. -/
def cond (s : State) (src : Source) : Bool := s.event.accounts[src].cond

/-- The condition sources (R166). -/
def isConditionSource (src : Source) : Bool :=
  src.val < 32 || (33 ≤ src.val && src.val ≤ 37) || src.val == 44 || src.val == 46 || src.val == 51 ||
    src.val == 53 || src.val == 62

/-- PUMP_CLAMP. -/
def srcPumpClamp : Source := 32
/-- PRESSURE_HOLD. -/
def srcPressureHold : Source := 33
/-- PIT_GAIN. -/
def srcPitGain : Source := 34
/-- PIT_LOSS. -/
def srcPitLoss : Source := 35
/-- RETURN_LOW. -/
def srcReturnLow : Source := 36
/-- BALANCE_SUSPENDED. -/
def srcBalanceSuspended : Source := 37
/-- SEGMENT_CHANGE. -/
def srcSegmentChange : Source := 38
/-- PROGRAMME_END. -/
def srcProgrammeEnd : Source := 39
/-- ROD_UNKNOWN. -/
def srcRodUnknown : Source := 40
/-- ROD_UNAVAILABLE. -/
def srcRodUnavailable : Source := 41
/-- MAKEUP_TORQUE. -/
def srcMakeupTorque : Source := 42
/-- UNTRACKED_CONNECTION. -/
def srcUntracked : Source := 43
/-- STRING_INVALID. -/
def srcStringInvalid : Source := 44
/-- ROD_RETIRED. -/
def srcRodRetired : Source := 45
/-- STRING_FATIGUE. -/
def srcStringFatigue : Source := 46
/-- SLIPS_REFUSED. -/
def srcSlipsRefused : Source := 47
/-- TONG_REFUSED. -/
def srcTongRefused : Source := 48
/-- WELL_CENTRE_REFUSED. -/
def srcWellCentreRefused : Source := 49
/-- HOIST_HELD. -/
def srcHoistHeld : Source := 50
/-- OVERPULL. -/
def srcOverpull : Source := 51
/-- DEPTH_CONFLICT. -/
def srcDepthConflict : Source := 52
/-- DRILLING_NO_FLOW. -/
def srcNoFlow : Source := 53
/-- LAG_OVERFLOW. -/
def srcLagOverflow : Source := 54
/-- RECORD_QUEUE_FULL. -/
def srcQueueFull : Source := 55
/-- FORWARD_OVERRUN. -/
def srcForwardOverrun : Source := 56
/-- LINE_CHECK. -/
def srcLineCheck : Source := 57
/-- REQUEST_OVERRUN. -/
def srcRequestOverrun : Source := 58
/-- GOVERN_DROPPED. -/
def srcGovernDropped : Source := 59
/-- INTERVAL_UNCLASSED. -/
def srcUnclassed : Source := 60
/-- TARIFF_APPLIED. -/
def srcTariffApplied : Source := 61
/-- LINK_DOWN. -/
def srcLinkDown : Source := 62
/-- PROFILE_END. -/
def srcProfileEnd : Source := 63

/-- CH_FAULT_c, event source c (R31). -/
def srcChFault (c : Ch) : Source := c.castLE (by decide)

/-- The number of sources pending (R167). -/
def pendingCount (s : State) : Nat := s.event.accounts.toList.countP (·.pending)

/-! ## Alarm classes and actions (R172, R175) -/

/-- Whether some condition routed to a class is true: its routed conditions have not cleared (R172). -/
def routedTrue (s : State) (k : AlarmClass) : Bool :=
  (List.finRange 64).any fun src => isConditionSource src && cond s src && (routeOf s src == some k)

/-- The actions a class may carry (R171). -/
inductive Action where
  | holdPumpRate | stopPumps | holdHoistLower | holdTong | holdHandler
  deriving DecidableEq, Repr

/-- The bit number of an action in an action byte (R171). -/
def Action.bitNo : Action → Nat
  | .holdPumpRate => 0
  | .stopPumps => 1
  | .holdHoistLower => 2
  | .holdTong => 3
  | .holdHandler => 4

/-- Whether a class carries an action in the active ROUTE (R171). -/
def classCarries (s : State) (k : AlarmClass) (a : Action) : Bool := (actionByte s k).testBit a.bitNo

/-- An action is in force while a class that carries it is ACTIVE or in ACKNOWLEDGE_WAIT (R175). -/
def actionInForce (s : State) (a : Action) : Bool :=
  (List.finRange 8).any fun k => classCarries s k a && (s.event.classes[k] != .inactive)

/-! ## The rig -/

/-- Rotating (R56); false while SETTINGS has no valid active copy (R43). -/
def rotating (s : State) : Bool :=
  match settings s, held s 8 with
  | some g, some n => decide (g.rotationThreshold ≤ n)
  | _, _ => false

/-- The sum of the two stroke rates, an absent rate adding 0 (R56, R89). -/
def rateSum (s : State) : Nat := s.circ.rate1.getD 0 + s.circ.rate2.getD 0

/-- Pumping (R56); false while SETTINGS has no valid active copy (R43). -/
def pumping (s : State) : Bool :=
  match settings s with
  | some g => decide (g.pumpOnThreshold ≤ rateSum s)
  | none => false

/-- WOB in daN: floor(WOB_N / 10), absent with WOB_N (R54). -/
def wob (s : State) : Option Nat := s.depth.wobN.map (· / 10)

/-- WOB is present and at least the WOB threshold (R50, R56). -/
def wobReached (s : State) (g : Settings) : Bool :=
  match wob s with
  | some w => decide (g.wobThreshold ≤ w)
  | none => false

/-- The drilling condition (R56). -/
def drilling (s : State) : Bool :=
  match settings s, s.depth.usedBit with
  | some g, some u => rotating s && decide (s.depth.hole - g.onBottomBand ≤ u) && wobReached s g && s.rod.valid
  | _, _ => false

/-- A volume in µL as litres, rounded toward zero (R101, R106). -/
def litres (x : Int) : Int := x.tdiv 1000000

/-- The job time: the job clock's value (R62). -/
def jobTime (s : State) : Nat := s.depth.jobClock

/-- The condition of LINK_DOWN: a port that has been UP since reset is DOWN (R2). -/
def linkDownCond (s : State) : Bool :=
  (s.line.fieldLink.everUp && !s.line.fieldLink.up) || (s.line.cabLink.everUp && !s.line.cabLink.up)

/-- The density flag (R100). -/
def densityFlag (s : State) : Bool :=
  match held s 12, activeSegment s with
  | some d, some g => decide (d < g.densityMin ∨ g.densityMax < d)
  | _, _ => false

end Sys2Proof.Machine
end

