-- ==== Sys2Proof/Machine/Ops.lean ====
section
/-! DEFINITION. The operations the units share: occurrences and condition reports with the class changes, STATUS and
injections they bring (R24, R168, R169, R172, R175, R183), and responses (R199). -/

namespace Sys2Proof.Machine

/-! ## Injections (R19, R183) -/

/-- The injected command frame of a role: one value, GOVERNED set, addressed by the binding (R4, R183). -/
def injectionFrame (b : Nat × Nat) (v : Nat) : Frame where
  kind := kindCommand
  governed := true
  node := BitVec.ofNat 6 b.1
  tag := BitVec.ofNat 8 b.2
  values := [w16 v]

/-- The list of waiting injections after one more: in the place of one for the same role, otherwise at the end,
the oldest being discarded when 4 wait (R19). -/
def placeInjection (i : Injection) (waiting : List Injection) : List Injection :=
  if waiting.any (fun j => j.role == i.role) then waiting.map fun j => if j.role = i.role then i else j
  else if waiting.length < 4 then waiting ++ [i]
  else waiting.drop 1 ++ [i]

/-- Form an injection of a value for a role bound at `b` and hand it to the line interface (R183). -/
def inject (r : Role) (b : Nat × Nat) (v : Nat) (s : State) : State :=
  s.setLine { s.line with
    injections := placeInjection { role := r, frame := injectionFrame b v } s.line.injections }

/-- The remembered setpoint of a pump role (R178). -/
def setpoint (s : State) : Role → Option Nat
  | .pump1 => s.gov.setpoint1
  | .pump2 => s.gov.setpoint2
  | _ => none

/-- The detail of a PUMP_CLAMP: asked × 65,536 + given (R181, R183). -/
def clampDetail (asked given : Nat) : BitVec 32 := BitVec.ofNat 32 (asked * 65536 + given)

/-! ## Occurrences (R168) -/

/-- An occurrence: its source, its detail and its applied flag (R168). -/
structure Occ where
  src : Source
  detail : BitVec 32
  applied : Bool
  deriving DecidableEq, Repr

/-- Replace a source's account. -/
def setAccount (src : Source) (a : Account) (s : State) : State :=
  s.setEvent { s.event with accounts := s.event.accounts.set src a }

/-- Set a class's state. -/
def setClass (k : AlarmClass) (c : ClassState) (s : State) : State :=
  s.setEvent { s.event with classes := s.event.classes.set k c }

/-- An account after an occurrence at a job time (R168). -/
def Account.take (a : Account) (o : Occ) (time : Nat) : Account :=
  { a with
    pending := true
    firstTime := if a.pending then a.firstTime else time
    count := min 255 (a.count + 1)
    detail := o.detail
    applied := o.applied }

/-- Take an occurrence into its source's account (R168). -/
def takeOccurrence (o : Occ) (s : State) : State :=
  setAccount o.src (s.event.accounts[o.src].take o (jobTime s)) s

/-- Make STATUS due; the first cause is kept (R24). -/
def statusDue (cause : StatusCause) (s : State) : State :=
  s.setLine { s.line with statusDue := some (s.line.statusDue.getD cause) }

/-- The governor's part in STOP_PUMPS at an activation notice, for one pump role: in GOVERN it injects 0; in
OBSERVE PUMP_CLAMP occurs with applied clear; an unbound role and BYPASS bring nothing (R180, R183). -/
def stopPumpWith (occ : Occ → State → State) (r : Role) (s : State) : State :=
  match roleBinding s r, s.line.mode with
  | some b, .govern => inject r b 0 s
  | some _, .observe =>
    occ { src := srcPumpClamp, detail := clampDetail ((setpoint s r).getD 65535) 0, applied := false } s
  | _, _ => s

/-- The activation notice of a class (R175): STOP_PUMPS stops the pump roles, pump 1 first (R183). -/
def activationNoticeWith (occ : Occ → State → State) (k : AlarmClass) (s : State) : State :=
  if classCarries s k .stopPumps then stopPumpWith occ .pump2 (stopPumpWith occ .pump1 s) else s

/-- A class to which an occurrence or a condition that has become true is routed: it is ACTIVE afterwards, and a
change makes STATUS due and then sends the activation notice (R172, R174, R175; the order: log 28). -/
def raiseClassWith (occ : Occ → State → State) (k : AlarmClass) (s : State) : State :=
  if s.event.classes[k] = .active then s
  else activationNoticeWith occ k (statusDue .cls (setClass k .active s))

/-- An occurrence as the event unit takes it: the account, then the class (R168, R172; the order: log 28). -/
def occurWith (occ : Occ → State → State) (o : Occ) (s : State) : State :=
  match routeOf s o.src with
  | none => takeOccurrence o s
  | some k => raiseClassWith occ k (takeOccurrence o s)

/-- An occurrence with everything it brings, the occurrences it causes in turn included, to a depth of `n`. -/
def occurFuel : Nat → Occ → State → State
  | 0 => takeOccurrence
  | n + 1 => occurWith (occurFuel n)

/-- How deep occurrences cause one another: an occurrence causes PUMP_CLAMP alone, by making a class ACTIVE that carries
STOP_PUMPS, and the class of PUMP_CLAMP becomes ACTIVE once (R172, R183, log 14). -/
def occurDepth : Nat := 2

/-- An occurrence as it is raised by any block (R168). -/
def raise (o : Occ) (s : State) : State := occurFuel occurDepth o s

/-- An occurrence from a block other than the command governor: applied set (R168). -/
def occur (src : Source) (detail : BitVec 32) (s : State) : State :=
  raise { src := src, detail := detail, applied := true } s

/-- An occurrence whose detail is a number. -/
def occurNat (src : Source) (detail : Nat) (s : State) : State := occur src (BitVec.ofNat 32 detail) s

/-! ## Condition reports (R169) -/

/-- The state of a class after a routed condition has become false (R172). -/
def fallenClass (c : ClassState) (isLatched stillTrue : Bool) : ClassState :=
  match c with
  | .inactive => .inactive
  | .active => if isLatched || stillTrue then .active else .inactive
  | .ackWait => if stillTrue then .ackWait else .inactive

/-- A class after one of its routed conditions has become false (R172, R174). -/
def lowerClass (k : AlarmClass) (s : State) : State :=
  let c := fallenClass s.event.classes[k] (latched s k) (routedTrue s k)
  if c = s.event.classes[k] then s else statusDue .cls (setClass k c s)

/-- The owner of a condition source reports its condition; a report of the value already held is no change
(R169). -/
def report (src : Source) (b : Bool) (s : State) : State :=
  if cond s src = b then s
  else
    let s1 := setAccount src { s.event.accounts[src] with cond := b } s
    match routeOf s1 src with
    | none => s1
    | some k => if b then raiseClassWith raise k s1 else lowerClass k s1

/-- Report a condition and, when it becomes true, raise the source's occurrence with a detail. -/
def setCondition (src : Source) (b : Bool) (detail : BitVec 32) (s : State) : State :=
  if b && !cond s src then occur src detail (report src b s) else report src b s

/-! ## Responses (R21, R199) -/

/-- The response codes, numbered as in R21. -/
inductive Code where
  | ok | deferred | notReady | busy | badRequest | badTable | badPage | badValue | incomplete
  | duplicate | notFound | inString | full | noJob | jobOpen | stringInHole | stillActive
  deriving DecidableEq, Repr

/-- The number of a response code (R21). -/
def Code.num : Code → Nat
  | .ok => 0
  | .deferred => 1
  | .notReady => 2
  | .busy => 3
  | .badRequest => 4
  | .badTable => 5
  | .badPage => 6
  | .badValue => 7
  | .incomplete => 8
  | .duplicate => 9
  | .notFound => 10
  | .inString => 11
  | .full => 12
  | .noJob => 13
  | .jobOpen => 14
  | .stringInHole => 15
  | .stillActive => 16

/-- An answer: its code, and its result values where the rule that decided it gives some (R199). -/
structure Reply where
  code : Code
  results : Option (List Word)
  deriving DecidableEq, Repr

/-- An answer that echoes the request's own values (R199). -/
def Reply.echo (c : Code) : Reply := { code := c, results := none }

/-- An answer with result values from value 1 on (R199). -/
def Reply.values (c : Code) (vs : List Word) : Reply := { code := c, results := some vs }

/-- The response frame to a request of a kind with given values; at most 14 values are echoed (R4, R199). -/
def responseFrame (tag : BitVec 8) (requestValues : List Word) (r : Reply) : Frame where
  kind := kindResponse
  governed := true
  node := 0
  tag := tag
  values := w16 r.code.num :: r.results.getD (requestValues.take 14)

/-- The decoder may take a request: the response slot is empty and no completion response waits (R20, R21). -/
def decoderFree (s : State) : Bool := s.line.response.isNone && s.line.completion.isNone

/-- Place a response in the slot. -/
def placeResponse (f : Frame) (s : State) : State := s.setLine { s.line with response := some f }

/-- The request decoder takes the head of the request FIFO where it is of a kind that `kind` accepts (R198): a
COUNT that does not fit is answered BAD_REQUEST, a job that is ENDING answers BUSY unless the kind is taken then
(R149), and otherwise `body` carries the request out and decides its answer; none is no response yet (R21).
Where no such request can be taken, nothing happens. -/
def takeRequest (kind : Nat → Bool) (countFits : Nat → Bool) (whileEnding : Bool)
    (body : Frame → State → State × Option Reply) (s : State) : State :=
  match s.line.requests with
  | [] => s
  | f :: rest =>
    if decoderFree s && kind f.tag.toNat then
      let s1 := s.setLine { s.line with requests := rest }
      if !countFits f.values.length then
        placeResponse (responseFrame f.tag f.values (Reply.echo .badRequest)) s1
      else if s.bill.job = .ending ∧ whileEnding = false then
        placeResponse (responseFrame f.tag f.values (Reply.echo .busy)) s1
      else
        match body f s1 with
        | (s2, some r) => placeResponse (responseFrame f.tag f.values r) s2
        | (s2, none) => s2
    else s

end Sys2Proof.Machine
end

