-- ==== Sys2Proof/Machine/Governor.lean ====
section
/-! DEFINITION. The command governor (chapter 10): pump limits, governed frames, injections at a hold's start, the
well-centre claim. -/

namespace Sys2Proof.Machine

/-! ## Pump rate (R181 to R184) -/

/-- The terms of a pump role's limit that apply (R181). -/
def pumpLimitTerms (s : State) (r : Role) : List Nat :=
  (match activeSegment s with
    | some g => g.maxRate :: (if cond s srcPressureHold then [g.holdRate] else [])
    | none => []) ++
  (if actionInForce s .holdPumpRate then (setpoint s r).toList else []) ++
  (if actionInForce s .stopPumps then [0] else [])

/-- The limit of a pump role: the lowest term, none when no term applies (R181). -/
def pumpLimit (s : State) (r : Role) : Option Nat := (pumpLimitTerms s r).min?

/-- Remember the value sent for a pump role; other roles have no setpoint (R182). -/
def remember (r : Role) (v : Option Nat) (s : State) : State :=
  match r with
  | .pump1 => s.setGov { s.gov with setpoint1 := v }
  | .pump2 => s.setGov { s.gov with setpoint2 := v }
  | _ => s

/-- Whether decisions are applied: the line mode is GOVERN (R180). -/
def applied (s : State) : Bool := s.line.mode == .govern

/-- An occurrence of the governor, applied set in GOVERN and clear otherwise (R180, R192). -/
def govOccur (src : Source) (detail : BitVec 32) (s : State) : State :=
  raise { src := src, detail := detail, applied := applied s } s

/-- The hold-start notice for one pump role (R183). -/
def holdStartRole (r : Role) (s : State) : State :=
  match roleBinding s r, activeSegment s, pumpLimit s r with
  | some b, some g, some limit =>
    let above := match setpoint s r with
      | none => true
      | some v => decide (g.holdRate < v)
    if above then
      match s.line.mode with
      | .govern => inject r b limit s
      | .observe => govOccur srcPumpClamp (clampDetail ((setpoint s r).getD 65535) limit) s
      | .bypass => s
    else s
  | _, _, _ => s

/-- The hold-start notice of R98 as the governor takes it, pump 1 first (R183). -/
def holdStart (s : State) : State := holdStartRole .pump2 (holdStartRole .pump1 s)

/-- Replace the first value of a frame and set GOVERNED; the check follows the frame (R179). -/
def clampFrame (f : Frame) (v : Nat) : Frame :=
  { f with governed := true, values := w16 v :: f.values.drop 1 }

/-- What the governor decides of a frame: the frame to be sent, none for a drop (R179). -/
abbrev Decision := Option Frame × State

/-- Govern a pump role command of value v; PUMP_CLAMP occurs before the setpoint is remembered (R181, R182; the order:
log 28). -/
def governPump (r : Role) (f : Frame) (v : Nat) (s : State) : Decision :=
  match pumpLimit s r with
  | none => (some f, remember r (some v) s)
  | some limit =>
    if v ≤ limit then (some f, remember r (some v) s)
    else if applied s then
      (some (clampFrame f limit), remember r (some limit) (govOccur srcPumpClamp (clampDetail v limit) s))
    else (some f, remember r (some v) (govOccur srcPumpClamp (clampDetail v limit) s))

/-- A drop with its occurrence: in GOVERN the frame is discarded, in OBSERVE it is sent unchanged (R180). -/
def refuse (src : Source) (cause aux : Nat) (f : Frame) (s : State) : Decision :=
  (if applied s then none else some f, govOccur src (BitVec.ofNat 32 (cause * 65536 + aux)) s)

/-! ## Hoist (R185) -/

/-- BLOCK_HEIGHT is not known to be above the handler clearance plus the lower margin (R185). -/
def blockInMargin (s : State) : Bool :=
  match held s 7, settings s with
  | some v, some g => decide (v ≤ g.handlerClearance + g.lowerMargin)
  | _, _ => true

/-- Govern a HOIST command (R185). -/
def governHoist (f : Frame) (w : Word) (s : State) : Decision :=
  if 0 ≤ w.toInt then (some f, s)
  else if actionInForce s .holdHoistLower then refuse srcHoistHeld 1 w.toNat f s
  else if s.gov.holder = .handler ∧ blockInMargin s = true then refuse srcHoistHeld 2 w.toNat f s
  else (some f, s)

/-! ## Slips (R186) -/

/-- Govern a SLIPS command of value v (R186). -/
def governSlips (f : Frame) (v : Nat) (s : State) : Decision :=
  if v = 1 then (some f, s)
  else if 1 < v then refuse srcSlipsRefused 3 v f s
  else
    match isLive s 6, held s 6, settings s with
    | true, some h, some g =>
      let load : Int := (h : Int) * 10 - g.blockWeight
      if (s.depth.buoyed : Int) * g.slipsReleasePercent ≤ load * 100 then (some f, s)
      else refuse srcSlipsRefused 2 h f s
    | _, _, _ => refuse srcSlipsRefused 1 0 f s

/-! ## Tong (R187) -/

/-- The cause for which a TONG command is refused, none when it passes every test (R187). -/
def tongRefusal (v : Nat) (s : State) : Option Nat :=
  if 2 < v then some 5
  else if v = 0 then none
  else if actionInForce s .holdTong then some 1
  else if isLive s 10 = false ∨ held s 10 = some 0 then some 2
  else if v = 1 ∧ s.rod.candidate = none then some 3
  else if v = 2 ∧ s.rod.string = [] then some 4
  else none

/-- Govern a TONG command of value v (R187). -/
def governTong (f : Frame) (v : Nat) (s : State) : Decision :=
  match tongRefusal v s with
  | some cause => refuse srcTongRefused cause v f s
  | none => (some f, s)

/-! ## The well centre (R188 to R190) -/

/-- The claim goes to the handler, which has not yet started (R189). -/
def claimHandler (s : State) : State := s.setGov { s.gov with holder := .handler, moving := false }

/-- The cause and auxiliary for which a HANDLER command is refused, none when it passes (R189). -/
def handlerRefusal (v : Nat) (s : State) : Option (Nat × Nat) :=
  if 1 < v then some (5, v)
  else if v = 0 then none
  else if actionInForce s .holdHandler then some (3, 0)
  else match s.gov.holder with
    | .topDrive => some (1, min 65535 (s.gov.lastBlock.getD 65535))
    | .handler => some (2, 0)
    | .none => none

/-- Govern a HANDLER command of value v. A present command that is sent claims the well centre: in GOVERN when it
passes, in OBSERVE whenever the holder was NONE (R189). -/
def governHandler (f : Frame) (v : Nat) (s : State) : Decision :=
  match handlerRefusal v s with
  | none => (some f, if v = 1 then claimHandler s else s)
  | some (cause, aux) =>
    let d := refuse srcWellCentreRefused cause aux f s
    (d.1, if v = 1 ∧ applied s = false ∧ s.gov.holder = .none then claimHandler d.2 else d.2)

/-- Govern a role command: its first value decides; with COUNT 0 it is forwarded unchanged (R179). -/
def governRole (r : Role) (f : Frame) (s : State) : Decision :=
  match f.values with
  | [] => (some f, s)
  | w :: _ =>
    match r with
    | .pump1 => governPump .pump1 f w.toNat s
    | .pump2 => governPump .pump2 f w.toNat s
    | .hoist => governHoist f w s
    | .slips => governSlips f w.toNat s
    | .tong => governTong f w.toNat s
    | .handler => governHandler f w.toNat s

/-- The role whose binding a COMMAND frame's NODE and TAG equal (R41, R179). -/
def roleOf (s : State) (f : Frame) : Option Role :=
  if f.kind = kindCommand then
    allRoles.find? fun r => roleBinding s r == some (f.node.toNat, f.tag.toNat)
  else none

/-- Govern the frame that leaves the downstream FIFO (R179). -/
def govern (f : Frame) (s : State) : Decision :=
  match roleOf s f with
  | some r => governRole r f s
  | none => (some f, s)

/-- A waiting injection as its transmission begins: in GOVERN a pump injection above its limit is lowered to it, with
PUMP_CLAMP; then the value sent is remembered (R182, R184; the order: log 28). -/
def beginInjection (i : Injection) (s : State) : Frame × State :=
  let v := i.frame.val 0
  if i.role = .pump1 ∨ i.role = .pump2 then
    match applied s, pumpLimit s i.role with
    | true, some limit =>
      if limit < v then
        ({ i.frame with values := [w16 limit] },
          remember i.role (some limit) (govOccur srcPumpClamp (clampDetail v limit) s))
      else (i.frame, remember i.role (some v) s)
    | _, _ => (i.frame, remember i.role (some v) s)
  else (i.frame, s)

/-- The block has entered the zone while the handler holds the claim: the injection, then the occurrence (R190; the
order: log 28). -/
def zoneEntered (v : Nat) (s : State) : State :=
  let s1 := match s.line.mode, roleBinding s .hoist with
    | .govern, some b => inject .hoist b 0 s
    | _, _ => s
  govOccur srcWellCentreRefused (BitVec.ofNat 32 (4 * 65536 + v)) s1

/-- An accepted BLOCK_HEIGHT sample as the governor takes it (R188, R190). -/
def blockSample (v : Nat) (s : State) : State :=
  let s0 := s.setGov { s.gov with lastBlock := some v }
  match settings s with
  | none => s0
  | some g =>
    if v ≤ g.handlerClearance then
      let s1 := s0.setGov { s0.gov with
        inZone := true
        holder := if s.gov.holder = .none then .topDrive else s.gov.holder }
      if s.gov.holder = .handler ∧ s.gov.inZone = false then zoneEntered v s1 else s1
    else
      s0.setGov { s0.gov with
        inZone := false
        holder := if s.gov.holder = .topDrive then .none else s.gov.holder }

/-- An accepted HANDLER_STATE sample as the governor takes it: 0 PARKED, 1 MOVING, 2 AT_CENTRE, 3 FAULT
(R25, R189). -/
def handlerSample (v : Nat) (s : State) : State :=
  if s.gov.holder = .handler then
    if v = 1 then s.setGov { s.gov with moving := true }
    else if v = 0 then
      if s.gov.moving then s.setGov { s.gov with holder := .none } else s
    else s.setGov { s.gov with holder := .none }
  else s

/-- The governor on entering BYPASS (R191). -/
def governorBypass (s : State) : State :=
  s.setGov { s.gov with
    setpoint1 := none
    setpoint2 := none
    holder := .none
    inZone := false
    moving := false }

end Sys2Proof.Machine
end

