-- ==== Sys2Proof/Machine/Billing.lean ====
section
/-! DEFINITION. The billing unit's accruals, snapshots and deferred tariff (R153 to R165). The steps that open and
end a job are in Machine/Jobs.lean. -/

namespace Sys2Proof.Machine

/-! ## Lines (R155) -/

/-- The key of METRES(class, band) (R7). -/
def keyMetres (c band : Nat) : Nat := 4 * c + band
/-- The key of LOSS (R7). -/
def keyLoss : Nat := 32
/-- The key of TIME(state) (R7). -/
def keyTime (state : Nat) : Nat := 33 + state
/-- The key of WATER (R7). -/
def keyWater : Nat := 42
/-- The key of RODS (R7). -/
def keyRods : Nat := 43

/-- The divisor of a line (R155). -/
def lineDivisor (key : Nat) : Nat :=
  if key ≤ 32 then 1000 else if key ≤ 41 then 3600 else if key = 42 then 1000 else 1

/-- The largest value of an unsigned 32-bit quantity. -/
def max32 : Nat := 4294967295

/-- A line after an accrual of quantity q at rate r (R155, R160). -/
def TicketLine.accrue (l : TicketLine) (divisor q r : Nat) : TicketLine :=
  let total := l.carry + q * r
  let quantity := l.quantity + q
  let amount := l.amount + total / divisor
  { quantity := min max32 quantity
    amount := min max32 amount
    carry := total % divisor
    saturated := l.saturated || decide (max32 < quantity) || decide (max32 < amount) }

/-- Accrue a quantity to a line at a rate (R155). A key that is no line's changes nothing; no rule gives one. -/
def accrue (key q r : Nat) (s : State) : State :=
  if h : key < 44 then
    s.setBill { s.bill with
      lines := s.bill.lines.set key (s.bill.lines[key].accrue (lineDivisor key) q r) }
  else s

/-- Number of an activity state (R8). -/
def Activity.num : Activity → Nat
  | .untracked => 0
  | .idle => 1
  | .circulating => 2
  | .drilling => 3
  | .reaming => 4
  | .tripping => 5
  | .connection => 6
  | .standby => 7
  | .repair => 8

/-- The billing notice of a closed interval (R147). -/
structure BillingNotice where
  number : Nat
  top : Nat
  length : Nat
  cls : Nat
  loss : Bool
  deriving DecidableEq, Repr

/-- The metre accruals of a billing notice while a ticket is open (R156). -/
def billInterval (n : BillingNotice) (s : State) : State :=
  if s.bill.ticketOpen then
    let pages := activePages s tTariff
    let band := depthBandIn pages n.top
    let s1 := accrue (keyMetres n.cls band) n.length (metreRateIn pages n.cls band) s
    let s2 := if n.loss then accrue keyLoss n.length (lossSurchargeIn pages) s1 else s1
    s2.setBill { s2.bill with lastInterval := some n.number }
  else s

/-- One second handed while a ticket is open (R157). -/
def billSecond (a : Activity) (s : State) : State :=
  if s.bill.ticketOpen then accrue (keyTime a.num) 1 (timeRateIn (activePages s tTariff) a.num) s else s

/-- A WATER_METER delta while a ticket is open (R158). -/
def billWater (d : Nat) (s : State) : State :=
  if s.bill.ticketOpen ∧ 0 < d then accrue keyWater d (waterRateIn (activePages s tTariff)) s else s

/-- One retirement while a ticket is open (R159). -/
def billRod (s : State) : State :=
  if s.bill.ticketOpen then accrue keyRods 1 (rodChargeIn (activePages s tTariff)) s else s

/-! ## Snapshots (R161) -/

/-- The lines a ticket carries: those with a quantity, each with its key, in ascending key order (R161). -/
def carriedLines (s : State) : List (TicketLine × Nat) :=
  (s.bill.lines.toList.zipIdx).filter fun l => decide (0 < l.1.quantity)

/-- The sum of the quantities of lines lo to hi − 1. -/
def quantitySum (s : State) (lo hi : Nat) : Nat :=
  (((s.bill.lines.toList.drop lo).take (hi - lo)).map (·.quantity)).sum

/-- The quantity of a line. -/
def lineQuantity (s : State) (key : Nat) : Nat := ((s.bill.lines.toList[key]?).map (·.quantity)).getD 0

/-- The seven values of a line in a line frame (R7). -/
def lineWords (l : TicketLine × Nat) : List Word :=
  [wBytes l.2 (bit l.1.saturated)] ++ w32 l.1.quantity ++ w32 l.1.amount ++ w32 l.1.carry

/-- Line frames: two lines to a frame, the last alone when their number is odd (R7). -/
def lineFrames : List (TicketLine × Nat) → List (List Word)
  | a :: b :: rest => (lineWords a ++ lineWords b) :: lineFrames rest
  | [a] => [lineWords a]
  | [] => []

/-- The TICKET record of the open ticket, in the layout of R7 (R161). -/
def ticketRecord (final : Bool) (s : State) : RecordBody :=
  let lines := carriedLines s
  let total := (lines.map (·.1.amount)).sum
  let flags := bit final + 2 * bit (decide (max32 < total)) + 4 * bit (lines.any (·.1.saturated))
  let head0 := [w16 s.bill.jobNumber, w16 s.bill.ticketNumber] ++ w32 s.bill.openTime ++ w32 (jobTime s) ++
    w32 s.bill.openHole ++ w32 s.depth.hole ++ [wBytes lines.length flags] ++ w32 (min max32 total)
  let head1 := wordsOf32 (fitDouble (quantitySum s 0 32)) ++ wordsOf32 (fitDouble (quantitySum s 33 42)) ++
    [w16 (min 65535 (lineQuantity s keyRods))] ++ w32 (lineQuantity s keyWater) ++
    [w16 s.interval.currentClass, w16 (bit s.bill.deferred)] ++ w32Opt s.bill.lastInterval
  { type := 3, frames := head0 :: head1 :: lineFrames lines }

/-- A line after a snapshot: quantity and amount cleared, carry and saturated flag kept (R155). -/
def TicketLine.nextTicket (l : TicketLine) : TicketLine := { l with quantity := 0, amount := 0 }

/-- Freeze the open ticket into the out-buffer; every line's quantity and amount are cleared (R155, R161, R162). -/
def snapshot (final : Bool) (s : State) : State :=
  s.setBill { s.bill with
    outBuffer := some (ticketRecord final s)
    lines := s.bill.lines.map TicketLine.nextTicket }

/-- Make a table's pending copy active and clear its page-loaded mask (R195). -/
def Table.activate (t : Table) : Table :=
  { t with active := some t.pending, mask := List.replicate t.pending.length false }

/-- Replace a table by its activated form. -/
def activateTable (t : TableNo) (s : State) : State := s.setTables (s.tables.set t (s.tables[t].activate))

/-- At a snapshot the deferred tariff, where there is one, becomes active and TARIFF_APPLIED occurs with the number
of the ticket just snapshotted (R165). -/
def applyDeferred (s : State) : State :=
  if s.bill.deferred then
    let s1 := activateTable tTariff s
    occurNat srcTariffApplied s.bill.ticketNumber (s1.setBill { s1.bill with deferred := false })
  else s

/-- Clear every line's quantity, amount, carry and saturated flag (R150, R152). -/
def clearLines (s : State) : State :=
  s.setBill { s.bill with lines := Vector.replicate 44 TicketLine.empty }

end Sys2Proof.Machine
end

