-- ==== Sys2Proof/Machine/Lag.lean ====
section
/-! DEFINITION. The lag unit (chapter 6): annular volume, joining, arrival, flush and flush completion. -/

namespace Sys2Proof.Machine

/-- The largest value of an unsigned 64-bit quantity. -/
def max64 : Nat := 18446744073709551615

/-- The sum of overlap × capacity over sections whose first has its top at `top`; the last section reaches down
without end (R112, R114). -/
def overlapSum (d : Nat) : Nat → List Section → Nat
  | _, [] => 0
  | top, [last] => (d - top) * last.capacity
  | top, sec :: rest => (min d sec.bottom - top) * sec.capacity + overlapSum d sec.bottom rest

/-- The annular volume V(d) in mL under a PROFILE copy (R114). -/
def annularVolume (pages : List Page) (d : Nat) : Nat :=
  overlapSum d 0 (sectionsIn pages) / 1000 + surfaceVolumeIn pages

/-- Whether an entry of the lag queue is WAITING (R116). -/
def LagEntry.isWaiting (e : LagEntry) : Bool :=
  match e.stage with
  | .waiting => true
  | _ => false

/-- The arrival fields an entry takes as it becomes DUE (R120). -/
def dueStage (s : State) : LagStage := .due (jobTime s) (held s 3) (held s 12) (cond s srcPitLoss)

/-- The arrival volume of a record that joins: V_p plus V(bottom) in µL, saturating, raised to the tail's where
that is above it (R118). -/
def arrivalVolume (pages : List Page) (bottom : Nat) (s : State) : Nat :=
  let reckoned := min max64 (s.circ.pumped + annularVolume pages bottom * 1000)
  match s.lag.queue.getLast? with
  | some tail => max reckoned tail.arrival
  | none => reckoned

/-- The record joins the lag queue at the tail, DUE at once where its arrival volume is not above V_p (R118). -/
def lagJoin (pages : List Page) (r : Strata) (s : State) : State :=
  let arrival := arrivalVolume pages r.bottom s
  let stage := if arrival ≤ s.circ.pumped then dueStage s else .waiting
  s.setLag { s.lag with queue := s.lag.queue ++ [{ strata := r, arrival := arrival, stage := stage }] }

/-- A record released unlagged goes to the hold, or is lost where that keeps 4. Where a DUE or FORCED head already waits
the record takes over its offer, and no wait begins for it (R117, R119; the wait: DESIGN CHOICE, log 29). -/
def releaseUnlagged (r : Strata) (s : State) : State :=
  if s.lag.hold.length < 4 then
    s.setLag { s.lag with hold := s.lag.hold ++ [r] }
  else occurNat srcQueueFull 258 s

/-- The bottom of the last section in use of a copy (R115). -/
def profileBottom (pages : List Page) : Nat := (sectionIn pages (sectionCountIn pages - 1)).bottom

/-- PROFILE_END where a close lies below the last section's bottom (R115). -/
def profileEnd (pages : List Page) (bottom : Nat) (s : State) : State :=
  if profileBottom pages < bottom then occurNat srcProfileEnd (bottom - profileBottom pages) s else s

/-- The lag unit takes a closed interval's record in one of three ways: PROFILE_END where it occurs, then LAG_OVERFLOW
where it occurs, then the joining or the release (R115, R117; the order: log 27). -/
def lagTake (r : Strata) (s : State) : State :=
  match activeCopy s tProfile with
  | none => releaseUnlagged r s
  | some pages =>
    let s1 := profileEnd pages r.bottom s
    if s1.lag.queue.length < 64 then lagJoin pages r s1
    else releaseUnlagged r (occurNat srcLagOverflow r.number s1)

/-- The walk of R120 along the queue: entries that are DUE or FORCED are passed over, WAITING entries whose arrival
volume is reached take `stage`, and the first that is not reached ends it. -/
def arrivalWalk (pumped : Nat) (stage : LagStage) : List LagEntry → List LagEntry
  | [] => []
  | e :: rest =>
    if e.isWaiting then
      if e.arrival ≤ pumped then { e with stage := stage } :: arrivalWalk pumped stage rest else e :: rest
    else e :: arrivalWalk pumped stage rest

/-- The lag unit takes a new V_p (R120). -/
def lagArrivals (s : State) : State :=
  s.setLag { s.lag with queue := arrivalWalk s.circ.pumped (dueStage s) s.lag.queue }

/-- An entry after a flush at a job time: a WAITING entry is FORCED (R124). -/
def LagEntry.force (time : Nat) (e : LagEntry) : LagEntry :=
  if e.isWaiting then { e with stage := .forced time } else e

/-- Mark every WAITING entry FORCED (R124, R125). -/
def lagFlush (s : State) : State :=
  s.setLag { s.lag with queue := s.lag.queue.map (LagEntry.force (jobTime s)) }

/-- While it watches, the lag unit sends the flush completion at the moment its queue and hold are both empty
(R126). -/
def flushCompletion (s : State) : State :=
  if s.lag.flushWatch ∧ s.lag.queue = [] ∧ s.lag.hold = [] then
    let s1 := s.setLag { s.lag with flushWatch := false }
    s1.setBill { s1.bill with ending := s1.bill.ending.map fun w => { w with lagDone := true } }
  else s

/-- Number of a trigger (R6). -/
def Trigger.num : Trigger → Nat
  | .depthStep => 0
  | .mark => 1
  | .shift => 2
  | .theEnd => 3

/-- The lag unit's part of a STRATA record (R122). -/
structure LagPart where
  status : Nat
  arrivalTime : Option Nat
  returnFlow : Option Nat
  density : Option Nat
  losses : Bool
  deriving DecidableEq, Repr

/-- The lag part of a record of the unlagged hold: UNLAGGED (R122). -/
def unlaggedPart : LagPart :=
  { status := 1, arrivalTime := none, returnFlow := none, density := none, losses := false }

/-- The lag part of an entry by the state it leaves in (R122). A WAITING entry is never offered (R121). -/
def lagPartOf : LagStage → LagPart
  | .due t r d l => { status := 0, arrivalTime := some t, returnFlow := r, density := d, losses := l }
  | .forced t => { status := 2, arrivalTime := some t, returnFlow := none, density := none, losses := false }
  | .waiting => unlaggedPart

/-- The STRATA record in the layout of R6. -/
def strataRecord (r : Strata) (p : LagPart) : RecordBody where
  type := 2
  frames :=
    [ w32 r.number ++ w32 r.top ++ w32 r.bottom ++ [wBytes r.trigger.num (r.cls.getD 255),
        wBytes p.status (bit r.loss + 2 * bit r.saturated + 4 * bit p.losses), w16 r.energy] ++
        w32 r.drillTime ++ w32 r.revolutions,
      [w16 r.meanWob, w16 r.meanTorque, w16 r.meanSpeed, w16 r.meanPressure, w16 r.meanFlow] ++ w32 r.rop ++
        w32 r.openTime ++ w32 r.closeTime ++ [w16 r.note],
      w32Opt p.arrivalTime ++ [w16Opt p.returnFlow, w16Opt p.density] ]

end Sys2Proof.Machine
end

