-- ==== Sys2Proof/Machine/Records.lean ====
section
/-! DEFINITION. The record queue: EVENT and STATUS records as they are built at entry, entry and admission (R5, R8, R22,
R23, R170). -/

namespace Sys2Proof.Machine

/-! ## Producers (R23) -/

/-- The record type a producer offers (R4). -/
def Producer.code : Producer → Nat
  | .rod => 1
  | .strata => 2
  | .ticket => 3
  | .event => 4
  | .status => 5

/-- The admission order (R23). -/
def admissionOrder : List Producer := [.rod, .ticket, .strata, .event, .status]

/-! ## EVENT records (R5, R170) -/

/-- The lowest-numbered pending source (R170). -/
def lowestPending (s : State) : Option Source := (List.finRange 64).find? fun src => s.event.accounts[src].pending

/-- The condition field of an EVENT record (R5). -/
def conditionCode (s : State) (src : Source) : Nat := if isConditionSource src then bit (cond s src) else 2

/-- The level of a class in the active ROUTE (R171). -/
def classLevel (s : State) (k : AlarmClass) : Nat := levelIn (activePages s tRoute) k

/-- The EVENT record of a source (R5, R170). -/
def eventRecord (s : State) (src : Source) : RecordBody :=
  let a := s.event.accounts[src]
  { type := 4
    frames := [[wBytes src (((routeOf s src).map (·.val)).getD 255), wBytes a.count (bit a.applied)] ++
      w32 a.firstTime ++ wordsOf32 a.detail ++
      [w16 (conditionCode s src), w16 (((routeOf s src).map (classLevel s)).getD 255)]] }

/-- An account whose record has entered: its pending flag and count are cleared (R23, R170). -/
def Account.entered (a : Account) : Account := { a with pending := false, count := 0 }

/-! ## STATUS records (R8) -/

/-- The line mode's code (R8). -/
def LineMode.code : LineMode → Nat
  | .bypass => 0
  | .observe => 1
  | .govern => 2

/-- A job state's code (R8). -/
def JobState.code : JobState → Nat
  | .noJob => 0
  | .opened => 1
  | .ending => 2

/-- A class state's code (R8). -/
def ClassState.code : ClassState → Nat
  | .inactive => 0
  | .active => 1
  | .ackWait => 2

/-- A claim holder's code (R8). -/
def Holder.code : Holder → Nat
  | .none => 0
  | .handler => 1
  | .topDrive => 2

/-- A STATUS cause's code (R8). -/
def StatusCause.code : StatusCause → Nat
  | .period => 0
  | .mode => 1
  | .cls => 2
  | .request => 3

/-- Eight two-bit codes in one word, the first at bits 1..0 (R8). -/
def packPairs (codes : List Nat) : Word := w16 (codes.foldr (fun c acc => c + 4 * acc) 0)

/-- Flags in one word, the first at bit 0 (R8). -/
def packFlags (flags : List Bool) : Word := w16 (flags.foldr (fun b acc => bit b + 2 * acc) 0)

/-- A stroke rate, saturating at 65,535; an absent one is written as all ones (R4, R8, log 16). -/
def rateWord (r : Option Nat) : Word := w16Opt (r.map (min 65535))

/-- The pit balance deviation in litres, 0 while SUSPENDED (R8). -/
def deviationWords (s : State) : List Word :=
  wordsOf32 (if s.circ.watching then fitSignedBits32 (litres s.circ.deviation) else 0)

/-- The actions in bit order (R171). -/
def allActions : List Action := [.holdPumpRate, .stopPumps, .holdHoistLower, .holdTong, .holdHandler]

/-- Frame 0 of a STATUS record after the common words, its cause given (R8). -/
def statusFrame0 (s : State) (cause : StatusCause) : List Word :=
  [w16 s.line.mode.code, wBytes (bit s.line.fieldLink.up) (bit s.line.cabLink.up),
    w16 (s.line.records.length + 3), w16 s.line.highWater,
    wBytes s.line.forward.length s.line.downstream.length,
    wBytes s.line.requests.length s.line.injections.length,
    w16 s.bill.job.code, w16 s.depth.activity.num] ++
  w32 (jobTime s) ++ w32 s.depth.hole ++ [w16 cause.code]

/-- Frame 1 of a STATUS record after the common word (R8). -/
def statusFrame1 (s : State) : List Word :=
  w32Opt s.depth.usedBit ++
  [wBytes (bit s.rod.valid) s.rod.string.length, w16 (s.rod.candidate.getD 0), w16Opt s.circ.segment,
    packFlags [cond s srcPressureHold, densityFlag s, s.circ.watching, drilling s, s.depth.downtime != .none,
      s.bill.deferred, s.circ.programmeEnd]] ++
  deviationWords s ++ [fitWord s.circ.flowIn, rateWord s.circ.rate1, rateWord s.circ.rate2] ++
  w32 ((s.interval.current.map (·.number)).getD 0) ++ [w16 s.interval.currentClass]

/-- Frame 2 of a STATUS record after the common word. While the job is ENDING its ticket number is the FINAL ticket's
(R8; DESIGN CHOICE, log 31). -/
def statusFrame2 (s : State) : List Word :=
  w64 s.circ.pumped ++
  [packPairs (s.event.classes.toList.map (·.code)), packFlags (allActions.map (actionInForce s)),
    packFlags (s.tables.toList.map fun t => t.active.isSome), w16 s.gov.holder.code,
    packPairs ((s.channels.toList.take 8).map (·.state.code)),
    packPairs ((s.channels.toList.drop 8).map (·.state.code)),
    wBytes s.lag.queue.length s.rod.out.length, w16 s.bill.ticketNumber, w16 s.bill.jobNumber,
    w16 (pendingCount s)]

/-- The STATUS record as it is built at entry (R8). -/
def statusRecord (s : State) (cause : StatusCause) : RecordBody where
  type := 5
  frames := [statusFrame0 s cause, statusFrame1 s, statusFrame2 s]

/-! ## Entry (R22) -/

/-- A record enters the queue whole: it takes the serial counter's value, the counter advances from 255 back to 0,
and the high-water mark follows the fill, or is set to it where the record is a STATUS record (R22). -/
def enterRecord (r : RecordBody) (s : State) : State :=
  let queue := s.line.records ++ recordFrames s.line.serial r
  s.setLine { s.line with
    records := queue
    serial := (s.line.serial + 1) % 256
    highWater := if r.type = 5 then queue.length else max s.line.highWater queue.length }

/-- The record a producer offers, built where it is built at entry (R23, R121). -/
def offeredRecord (s : State) : Producer → Option RecordBody
  | .rod => s.rod.out.head?
  | .ticket => s.bill.outBuffer
  | .strata =>
    match s.lag.hold, s.lag.queue with
    | r :: _, _ => some (strataRecord r unlaggedPart)
    | [], e :: _ => if e.isWaiting then none else some (strataRecord e.strata (lagPartOf e.stage))
    | [], [] => none
  | .event => (lowestPending s).map (eventRecord s)
  | .status => s.line.statusDue.map (statusRecord s)

/-- What leaves its producer as the offered record enters (R23, R87, R121, R126, R162, R170). -/
def releaseOffered (p : Producer) (s : State) : State :=
  match p with
  | .rod => s.setRod { s.rod with out := s.rod.out.drop 1 }
  | .ticket => s.setBill { s.bill with outBuffer := none }
  | .strata =>
    flushCompletion (match s.lag.hold with
      | _ :: rest => s.setLag { s.lag with hold := rest }
      | [] => s.setLag { s.lag with queue := s.lag.queue.drop 1 })
  | .event =>
    match lowestPending s with
    | some src => setAccount src s.event.accounts[src].entered s
    | none => s
  | .status => s.setLine { s.line with statusDue := none }

/-- One producer's record enters the queue and leaves its producer (R22, R23). -/
def admitOne (p : Producer) (r : RecordBody) (s : State) : State := releaseOffered p (enterRecord r s)

/-! ## Admission (R23) -/

/-- A producer is waiting while it has a record to offer that has not entered (R23). -/
def isWaiting (s : State) (p : Producer) : Bool := (offeredRecord s p).isSome

/-- The producers that wait, in admission order (R23). -/
def waiting (s : State) : List Producer := admissionOrder.filter (isWaiting s)

/-- The first waiting producer in admission order with its record (R23). -/
def firstOffer (s : State) : Option (Producer × RecordBody) :=
  admissionOrder.findSome? fun p => (offeredRecord s p).map fun r => (p, r)

/-- The free space of the record queue, in frames (R22). -/
def recordRoom (s : State) : Nat := 64 - s.line.records.length

/-- The first waiting producer's record where it fits in the free space, whether the CAB port is UP or DOWN
(R23; STRATA records while it is DOWN: DESIGN CHOICE, log 30). -/
def admissible (s : State) : Option (Producer × RecordBody) :=
  (firstOffer s).filter fun o => decide (o.2.frames.length ≤ recordRoom s)

/-- The first waiting producer for whose record RECORD_QUEUE_FULL is still to be judged; `judged` are those that have
been waiting with theirs. -/
def unjudged (judged : List Producer) (s : State) : Option Producer :=
  admissionOrder.find? fun p => isWaiting s p && !judged.contains p

/-- Admit records until the first one offered does not fit; then RECORD_QUEUE_FULL occurs once for each record that has
begun to wait and has not entered. A producer that offers a further record as one of its own enters begins to wait
afresh with it, a lag head that was on offer before included (R23; the head: DESIGN CHOICE, log 29). `n` bounds the
entries and the occurrences. -/
def admission : Nat → List Producer → State → State
  | 0, _, s => s
  | n + 1, judged, s =>
    match admissible s with
    | some (p, r) => admission n (judged.erase p) (admitOne p r s)
    | none =>
      match unjudged judged s with
      | some p => admission n (p :: judged) (occurNat srcQueueFull p.code s)
      | none => s

/-- The bound of an admission: an entry takes at least one of the 64 places and leaves one producer more to be judged,
an occurrence leaves one of the five producers fewer. -/
def admissionBound : Nat := 2 * 64 + 5

/-- The line interface admits records; the producers of `judged` have been waiting with theirs (R23). -/
def admitRecords (judged : List Producer) (s : State) : State := admission admissionBound judged s

/-- The end of a step that has led from `s` to `t`: where a producer has begun to wait in it, the line interface admits
records, those of one step together and in admission order (R23; at the end of the step: DESIGN CHOICE, log 4; the
ticket of the step among them: log 34). -/
def admitted (s t : State) : State :=
  if (waiting t).all (isWaiting s) then t else admitRecords (waiting s) t

/-- RECORD_QUEUE_FULL occurs for each record that has begun to wait and has not been judged in the step; `n` bounds the
occurrences (R23). -/
def judgeWaits : Nat → State → State
  | 0, s => s
  | n + 1, s =>
    match unjudged s.line.judged s with
    | some p => judgeWaits n (occurNat srcQueueFull p.code (s.setLine { s.line with judged := p :: s.line.judged }))
    | none => s

/-- A step in which ROD records may be offered begins: the producers that wait have been judged (log 4). -/
def beginJudging (s : State) : State := s.setLine { s.line with judged := waiting s }

/-- The end of a step that has led from `s` by way of `beginJudging` to `t`: the admission, but that RECORD_QUEUE_FULL
does not occur again for what has been judged within the step (R23; DESIGN CHOICE, log 4). -/
def admittedJudged (s t : State) : State :=
  let u := if (waiting t).all (isWaiting s) then t
    else admitRecords (admissionOrder.filter fun p => t.line.judged.contains p) t
  u.setLine { u.line with judged := s.line.judged }

/-- RECORD_ADMISSION: the admission by itself, in either state of the CAB port (R23; DESIGN CHOICE, log 4, log 30). -/
def execRecordAdmission (s : State) : Host.Outcome State Fault Refusal := .next (admitRecords (waiting s) s)

end Sys2Proof.Machine
end

