-- ==== Sys2Proof/Machine/Interval.lean ====
section
/-! DEFINITION. The interval unit (chapter 7): opening, accumulation, closing, specific energy and class. -/

namespace Sys2Proof.Machine

/-! ## Opening (R131, R132) -/

/-- The smallest multiple of a step that is greater than a depth (R132). -/
def nextMultiple (step top : Nat) : Nat := (top / step + 1) * step

/-- A passed boundary plus the step, increased by further steps while not greater than the top (R132). -/
def boundaryAfter (step passed top : Nat) : Nat := passed + step * ((top - passed) / step + 1)

/-- The boundary of an interval that opens at `top` with a latched step: at JOB_START (`closed` none) or after a
close by a trigger of an interval with the given boundary (R132). -/
def openingBoundary (closed : Option (Trigger × Option Nat)) (step : Option Nat) (top : Nat) : Option Nat :=
  match closed with
  | some (.depthStep, some b) => step.map fun st => boundaryAfter st b top
  | some (.mark, some b) => some b
  | some (.shift, some b) => some b
  | _ => step.map fun st => nextMultiple st top

/-- Open an interval (R131). -/
def openInterval (closed : Option (Trigger × Option Nat)) (top : Nat) (s : State) : State :=
  let step := (settings s).map (·.intervalStep)
  s.setInterval { s.interval with
    current := some
      { number := s.interval.counter
        top := top
        boundary := openingBoundary closed step top
        step := step
        minLength := (settings s).map (·.minClassifyLength)
        area := (activeCopy s tProfile).map bitAreaIn
        bounds := (activeCopy s tClassify).map boundariesIn
        openTime := jobTime s
        sumT := 0
        sumRot := 0
        sumTorque := 0
        sumSpeed := 0
        sumWob := 0
        sumPressure := 0
        sumFlow := 0
        sumThrust := 0
        loss := cond s srcPitLoss
        saturated := false
        note := 0 } }

/-! ## Accumulation (R133 to R135) -/

/-- The ceiling of Σ_rot (R130). -/
def rotCeiling : Nat := 140000000000000

/-- A 64-bit sum after an addition (R130). -/
def addSum (a b : Nat) : Nat := min max64 (a + b)

/-- The Δt of a ROTARY_TORQUE notice, capped at the channel's stale time (R84, R133). -/
def torqueTime (dt : Nat) (s : State) : Nat := min dt (staleTime s 9)

/-- The sums after a torque sample of torque τ at speed n over t ms. A Σ_rot that lands on its ceiling exactly does not set
the saturated flag; one that would pass it does (R133, R146; the reading: DESIGN CHOICE, log 35). -/
def OpenInterval.accumulate (o : OpenInterval) (torque n t wobValue pressure flow : Nat) : OpenInterval :=
  let rot := o.sumRot + torque * n * t
  { o with
    sumT := addSum o.sumT t
    sumRot := min rotCeiling rot
    saturated := o.saturated || decide (rotCeiling < rot)
    sumTorque := addSum o.sumTorque (torque * t)
    sumSpeed := addSum o.sumSpeed (n * t)
    sumWob := addSum o.sumWob (wobValue * t)
    sumPressure := addSum o.sumPressure (pressure * t)
    sumFlow := addSum o.sumFlow (flow * t) }

/-- An accepted ROTARY_TORQUE sample as the interval unit takes it (R133). -/
def intervalTorque (torque dt : Nat) (s : State) : State :=
  match s.interval.current with
  | some o =>
    if drilling s then
      s.setInterval { s.interval with
        current := some (o.accumulate torque ((held s 8).getD 0) (torqueTime dt s) ((wob s).getD 0)
          ((held s 2).getD 0) s.circ.flowIn) }
    else s
  | none => s

/-- A change of PIT_LOSS to true sets the open interval's loss flag (R135). -/
def markLoss (s : State) : State :=
  s.setInterval { s.interval with current := s.interval.current.map fun o => { o with loss := true } }

/-! ## Specific energy and class (R142 to R144) -/

/-- The cause for which a closing interval is UNCLASSED, none when it is classed (R144). -/
def unclassedCause (o : OpenInterval) (length : Nat) : Option Nat :=
  match o.minLength, o.area, o.bounds with
  | none, _, _ => some 1
  | some _, none, _ => some 2
  | some _, some _, none => some 3
  | some m, some _, some _ => if length < m then some 4 else if o.sumT < 1000 then some 5 else none

/-- The specific energy before it is held at 65,535 (R142). -/
def rawEnergy (o : OpenInterval) (length : Nat) : Nat :=
  let rotary := o.sumRot * 62832 / 600000000
  let thrust := o.sumThrust / 1000
  (rotary + thrust) * 1000 / (o.area.getD 0 * length)

/-- The class of a classed interval: how many of its boundaries are at or below E (R143). -/
def classOf (bounds : List Nat) (energy : Nat) : Nat := bounds.countP fun b => decide (b ≤ energy)

/-- A mean over Σt, saturating at 65,535; 0 when Σt is 0 (R146). -/
def meanOver (sum t : Nat) : Nat := min 65535 (sum / t)

/-- The class of a closing interval, none when it is UNCLASSED (R143, R144). -/
def closingClass (o : OpenInterval) (length : Nat) : Option Nat :=
  match unclassedCause o length with
  | some _ => none
  | none => some (classOf (o.bounds.getD []) (min 65535 (rawEnergy o length)))

/-- The interval's part of its STRATA record (R146). Division by a Σt of 0 gives 0, as R146 states. -/
def buildStrata (o : OpenInterval) (t : Trigger) (bottom time : Nat) : Strata :=
  let length := bottom - o.top
  let cls := closingClass o length
  let rop := length * 60000 / o.sumT
  { number := o.number
    top := o.top
    bottom := bottom
    trigger := t
    cls := cls
    energy := if cls.isSome then min 65535 (rawEnergy o length) else 0
    drillTime := min max32 (o.sumT / 1000)
    revolutions := min max32 (o.sumSpeed / 60000)
    meanWob := meanOver o.sumWob o.sumT
    meanTorque := meanOver o.sumTorque o.sumT
    meanSpeed := meanOver o.sumSpeed o.sumT
    meanPressure := meanOver o.sumPressure o.sumT
    meanFlow := meanOver o.sumFlow o.sumT
    rop := min max32 rop
    openTime := o.openTime
    closeTime := time
    note := o.note
    loss := o.loss
    saturated := o.saturated || (cls.isSome && decide (65535 < rawEnergy o length)) || decide (max32 < rop) }

/-! ## Closing (R141) -/

/-- The interval number that follows one: 1 follows 4,294,967,295 (R141). -/
def nextNumber (n : Nat) : Nat := if n = 4294967295 then 1 else n + 1

/-- Step 1 of a close: the current class follows a classed interval, INTERVAL_UNCLASSED reports another
(R144, R145). -/
def classifyClose (o : OpenInterval) (r : Strata) (s : State) : State :=
  match r.cls with
  | some k => s.setInterval { s.interval with currentClass := k }
  | none => occurNat srcUnclassed ((unclassedCause o (r.bottom - r.top)).getD 0) s

/-- Close the open interval at a bottom by a trigger (R141). After an END close no interval opens (R140). -/
def closeInterval (t : Trigger) (bottom : Nat) (s : State) : State :=
  match s.interval.current with
  | none => s
  | some o =>
    let r := buildStrata o t bottom (jobTime s)
    let s1 := classifyClose o r s
    let s2 := s1.setInterval { s1.interval with current := none, counter := nextNumber s1.interval.counter }
    let s3 := lagTake r s2
    let s4 := billInterval
      { number := r.number, top := r.top, length := bottom - r.top,
        cls := r.cls.getD s3.interval.currentClass, loss := r.loss } s3
    if t = .theEnd then s4 else openInterval (some (t, o.boundary)) bottom s4

/-- The length of the open interval: the hole depth less its top; 0 when none is open (R138). -/
def openLength (s : State) : Nat :=
  match s.interval.current with
  | some o => s.depth.hole - o.top
  | none => 0

/-- An advance notice as the interval unit takes it: thrust, then the boundary test (R134, R137). -/
def intervalAdvance (advance newHole wobNewton : Nat) (s : State) : State :=
  match s.interval.current with
  | none => s
  | some o =>
    let s1 := s.setInterval { s.interval with
      current := some { o with sumThrust := addSum o.sumThrust (wobNewton * advance) } }
    match o.boundary with
    | some b => if b ≤ newHole then closeInterval .depthStep newHole s1 else s1
    | none => s1

/-- The shift cut (R139). -/
def shiftCut (s : State) : State := if 0 < openLength s then closeInterval .shift s.depth.hole s else s

/-- The end cut: a close, or the discard of an interval of no length; no interval is open afterwards (R140). -/
def endCut (s : State) : State :=
  if 0 < openLength s then closeInterval .theEnd s.depth.hole s
  else s.setInterval { s.interval with current := none }

/-- The interval unit at the completion of JOB_END (R140). -/
def intervalClear (s : State) : State := s.setInterval { current := none, counter := 0, currentClass := 0 }

end Sys2Proof.Machine
end

