-- ==== Sys2Proof/Machine/Circulation.lean ====
section
/-! DEFINITION. The circulation unit (chapter 5): strokes, pumped volume, the mud programme, pressure hold, return
flow and the pit balance. -/

namespace Sys2Proof.Machine

/-! ## Conditions that follow pumping (R60, R99) -/

/-- Re-evaluate DRILLING_NO_FLOW (R60). -/
def evalNoFlow (s : State) : State :=
  setCondition srcNoFlow (s.depth.activity == .drilling && !pumping s) (BitVec.ofNat 32 (rateSum s)) s

/-- The condition of RETURN_LOW as R99 defines it. -/
def returnLow (s : State) : Bool :=
  match held s 3, activeSegment s with
  | some v, some g => pumping s && decide (v < g.minReturn)
  | _, _ => false

/-- Re-evaluate RETURN_LOW (R99). -/
def evalReturnLow (s : State) : State :=
  setCondition srcReturnLow (returnLow s) (BitVec.ofNat 32 ((held s 3).getD 0)) s

/-- What a possible change of pumping brings: DRILLING_NO_FLOW, then RETURN_LOW (R56, R60, R99; the order: log 27). -/
def pumpingChanged (s : State) : State := evalReturnLow (evalNoFlow s)

/-! ## Pumps and pumped volume (R88 to R91) -/

/-- The two pumps. -/
inductive Pump where
  | one | two
  deriving DecidableEq, Repr

/-- A pump's volume per stroke, µL: displacement × efficiency (R88). -/
def strokeVolume (g : Settings) : Pump → Nat
  | .one => g.displacement1 * g.efficiency1
  | .two => g.displacement2 * g.efficiency2

/-- A pump's stroke rate (R89). -/
def rate (s : State) : Pump → Option Nat
  | .one => s.circ.rate1
  | .two => s.circ.rate2

/-- Flow in by R91; 0 while SETTINGS has no valid active copy. -/
def flowInOf (s : State) : Nat :=
  match settings s with
  | some g =>
    (s.circ.rate1.getD 0 * strokeVolume g .one + s.circ.rate2.getD 0 * strokeVolume g .two) / 1000000
  | none => 0

/-- Recompute flow in (R91). -/
def recomputeFlow (s : State) : State := s.setCirc { s.circ with flowIn := flowInOf s }

/-- A pump's stroke rate becomes r; a change recomputes flow in and sends the depth unit a rate notice (R89, R91). -/
def setRate (p : Pump) (r : Option Nat) (s : State) : State :=
  if rate s p = r then s
  else
    let s1 := match p with
      | .one => s.setCirc { s.circ with rate1 := r }
      | .two => s.setCirc { s.circ with rate2 := r }
    pumpingChanged (recomputeFlow s1)

/-- The stroke rate of an accepted sample: floor(d × 60,000 / Δt), a Δt of 0 taken as 1 (R89). -/
def strokeRate (d dt : Nat) : Nat := d * 60000 / max 1 dt

/-- Add a stroke delta to V_p and hand the new V_p to the lag unit (R90). -/
def addStrokes (p : Pump) (d : Nat) (s : State) : State :=
  match settings s with
  | some g =>
    if d = 0 then s
    else lagArrivals (s.setCirc { s.circ with pumped := min max64 (s.circ.pumped + d * strokeVolume g p) })
  | none => s

/-- An accepted stroke sample as the circulation unit takes it: the rate with its notice, then V_p with its arrivals
(R89, R90; the order: log 27). -/
def strokeSample (p : Pump) (d dt : Nat) (s : State) : State :=
  addStrokes p d (setRate p (some (strokeRate d dt)) s)

/-! ## Pit balance (R101 to R107) -/

/-- Report PIT_LOSS, and a change to true to the interval unit (R106, R135). -/
def setPitLoss (b : Bool) (s : State) : State :=
  let s1 := setCondition srcPitLoss b (fitSignedBits32 (litres s.circ.deviation)) s
  if b && !cond s srcPitLoss then markLoss s1 else s1

/-- Report PIT_GAIN (R106). -/
def setPitGain (b : Bool) (s : State) : State :=
  setCondition srcPitGain b (fitSignedBits32 (litres s.circ.deviation)) s

/-- PIT_GAIN after a recomputation of D against a gain threshold (R106). -/
def gainAfter (was : Bool) (g : Nat) (d : Int) : Bool :=
  if was then !decide (d < (g : Int) * 500000) else decide ((g : Int) * 1000000 ≤ d)

/-- PIT_LOSS after a recomputation of D against a loss threshold (R106). -/
def lossAfter (was : Bool) (h : Nat) (d : Int) : Bool :=
  if was then !decide (-((h : Int) * 500000) < d) else decide (d ≤ -((h : Int) * 1000000))

/-- The mode is OBSERVE or GOVERN. -/
def inLine (s : State) : Bool := s.line.mode != .bypass

/-- The gain and loss watch, the gain first (log 27); both conditions are false while SUSPENDED and while no segment is active (R106). In BYPASS
they are kept as they stand, the balance being frozen (R107, log 23). -/
def pitWatch (s : State) : State :=
  match inLine s, s.circ.watching, activeSegment s with
  | false, _, _ => s
  | true, true, some g =>
    let s1 := setPitGain (gainAfter (cond s srcPitGain) g.gainThreshold s.circ.deviation) s
    setPitLoss (lossAfter (cond s srcPitLoss) g.lossThreshold s.circ.deviation) s1
  | true, _, _ => setPitLoss false (setPitGain false s)

/-- D with an adjustment A: measured × 1,000,000 − (R_p + A) (R101). -/
def deviationWith (a : Int) (s : State) : Int :=
  match held s 4 with
  | some v => fitSigned64 ((v : Int) * 1000000 - ((s.circ.reference : Int) + a))
  | none => s.circ.deviation

/-- While WATCHING, add to A and recompute D, without the watch (R101, R104). -/
def adjustPit (x : Int) (s : State) : State :=
  if s.circ.watching then
    let a := fitSigned64 (s.circ.adjustment + x)
    s.setCirc { s.circ with adjustment := a, deviation := deviationWith a s }
  else s

/-- A change of A with the watch that follows it (R104). -/
def pitAdjustment (x : Int) (s : State) : State :=
  if s.circ.watching then pitWatch (adjustPit x s) else s

/-- An accepted PIT_VOLUME sample while WATCHING: D and the watch (R101, R106). -/
def pitSample (s : State) : State :=
  if s.circ.watching then
    pitWatch (s.setCirc { s.circ with deviation := deviationWith s.circ.adjustment s })
  else s

/-- Take a baseline on a pit volume in L: PIT_GAIN, PIT_LOSS and BALANCE_SUSPENDED are reported false in this order, then
the watch (R102; the order: log 27). -/
def pitBaseline (v : Nat) (s : State) : State :=
  let s1 := s.setCirc { s.circ with
    watching := true, reference := v * 1000000, adjustment := 0, deviation := 0 }
  pitWatch (setCondition srcBalanceSuspended false 0 (setPitLoss false (setPitGain false s1)))

/-- The balance at rest: SUSPENDED with R_p, A and D at 0 (R101, R103). -/
def pitAtRest (s : State) : State :=
  s.setCirc { s.circ with watching := false, reference := 0, adjustment := 0, deviation := 0 }

/-- Suspend the balance as R103 gives, PIT_VOLUME's new state code being the detail; PIT_GAIN, PIT_LOSS and
BALANCE_SUSPENDED are reported in this order (log 27). A balance already SUSPENDED
keeps its state, and BALANCE_SUSPENDED is true afterwards in OBSERVE and GOVERN (R103, R107). -/
def pitSuspend (code : Nat) (s : State) : State :=
  setCondition srcBalanceSuspended true (BitVec.ofNat 32 code)
    (setPitLoss false (setPitGain false (pitAtRest s)))

/-- A state notice of PIT_VOLUME (R103): LOST or ABSENT in OBSERVE or GOVERN suspends a WATCHING balance. -/
def pitStateNotice (v : ValueState) (s : State) : State :=
  if inLine s ∧ s.circ.watching ∧ (v = .lost ∨ v.isAbsent) then pitSuspend v.code s else s

/-- An accepted PIT_VOLUME sample: a baseline where it takes the channel from ABSENT settled to LIVE in OBSERVE
or GOVERN, otherwise D and the watch (R101, R102). -/
def pitVolumeSample (v : Nat) (before : ValueState) (s : State) : State :=
  if before = .absentSettled ∧ inLine s then pitBaseline v s else pitSample s

/-- Leaving BYPASS: the balance is suspended with PIT_VOLUME ABSENT (R107). -/
def pitLeaveBypass (s : State) : State := pitSuspend 0 s

/-- The pit balance at the completion of JOB_END (R110). -/
def pitJobEnd (s : State) : State :=
  if inLine s then
    match held s 4 with
    | some v => pitBaseline v s
    | none => if s.circ.watching then pitSuspend s.channels[(4 : Ch)].state.code s else s
  else
    setCondition srcBalanceSuspended false 0 (setPitLoss false (setPitGain false (pitAtRest s)))

/-! ## The mud programme (R92 to R96) -/

/-- Re-evaluations after a change or re-find of the active segment: RETURN_LOW, then the watch (R94, R95; the order:
log 27). -/
def segmentWatch (s : State) : State := pitWatch (evalReturnLow s)

/-- The segment a re-find stops at, from segment `id` (R94). `n` bounds the walk; a checked chain ends within 16
segments (R93). -/
def refindFrom (pages : List Page) (hole : Nat) : Nat → Nat → Nat
  | 0, id => id
  | n + 1, id =>
    let g := segmentIn pages id
    if g.endDepth ≤ hole ∧ g.link ≠ linkEnd then refindFrom pages hole n g.link else id

/-- Re-find the active segment: PROGRAMME_END before SEGMENT_CHANGE (R94; the order: log 27); without an active MUDPROG
there is none to find (R92). -/
def refindSegment (s : State) : State :=
  match activeCopy s tMudprog with
  | none => s
  | some pages =>
    let id := refindFrom pages s.depth.hole 16 (entrySegmentIn pages)
    let ended := decide ((segmentIn pages id).endDepth ≤ s.depth.hole)
    let s1 := s.setCirc { s.circ with segment := some id, programmeEnd := ended }
    let s2 := if ended && !s.circ.programmeEnd then occurNat srcProgrammeEnd id s1 else s1
    let s3 := if s.circ.segment = some id then s2 else occurNat srcSegmentChange id s2
    segmentWatch s3

/-- Step along the chain against the hole depth (R95). `n` bounds the walk (R93). -/
def stepChain : Nat → State → State
  | 0, s => s
  | n + 1, s =>
    match s.circ.segment, activeSegment s with
    | some id, some g =>
      if g.endDepth ≤ s.depth.hole then
        if g.link = linkEnd then
          if s.circ.programmeEnd then s
          else occurNat srcProgrammeEnd id (s.setCirc { s.circ with programmeEnd := true })
        else stepChain n (occurNat srcSegmentChange g.link (s.setCirc { s.circ with segment := some g.link }))
      else s
    | _, _ => s

/-- The debit for new hole: bit face area × advance, in µL; none while PROFILE has no valid active copy (R105). -/
def holeDebit (advance : Nat) (s : State) : Int :=
  match activeCopy s tProfile with
  | some pages => (bitAreaIn pages * advance : Nat)
  | none => 0

/-- An advance notice as the circulation unit takes it: the debit, the chain, then RETURN_LOW and the watch once
(R95, R104, R105). -/
def circAdvance (advance : Nat) (s : State) : State :=
  segmentWatch (stepChain 17 (adjustPit (-(holeDebit advance s)) s))

/-! ## Pressure hold (R97, R98) -/

/-- PRESSURE_HOLD after an accepted pressure v (R97). -/
def holdAfter (was : Bool) (ceiling hysteresis v : Nat) : Bool :=
  if was then decide (ceiling - hysteresis < v) else decide (ceiling < v)

/-- An accepted STANDPIPE_PRESSURE sample (R97, R98). Without SETTINGS the hysteresis is 0 (R88). -/
def pressureSample (v : Nat) (s : State) : State :=
  match activeSegment s with
  | none => s
  | some g =>
    let was := cond s srcPressureHold
    let now := holdAfter was g.ceiling (((settings s).map (·.pressureHysteresis)).getD 0) v
    let s1 := setCondition srcPressureHold now (BitVec.ofNat 32 v) s
    if now && !was then holdStart s1 else s1

/-- An accepted WATER_METER sample with delta d as the pit balance takes it; a delta of 0 changes nothing (R104). -/
def waterSample (d : Nat) (s : State) : State := if d = 0 then s else pitAdjustment (d * 1000000) s

end Sys2Proof.Machine
end

