-- ==== Sys2Proof/Machine/Depth.lean ====
section
/-! DEFINITION. The depth unit (chapter 3): string top, bit and hole depth, weights, activity, the job clock; and the
changes of line mode that it and the other units take notice of (R15 to R17). -/

namespace Sys2Proof.Machine

/-! ## String top and bit depth (R44 to R48) -/

/-- T in mode FOLLOWING: BLOCK_HEIGHT plus the top-drive offset, or absent (R45). -/
def followingTop (s : State) : Option Int :=
  match held s 7, settings s with
  | some v, some g => some (v + g.topDriveOffset)
  | _, _ => none

/-- A difference clamped to 0..2,000,000 mm (R48). -/
def clampDepth (x : Int) : Nat := min 2000000 x.toNat

/-- The raw bit depth: L − T clamped, absent while the string is INVALID or T is absent (R48). -/
def rawBitOf (s : State) : Option Nat :=
  match s.rod.valid, s.depth.top with
  | true, some t => some (clampDepth (s.rod.length - t))
  | _, _ => none

/-- Recompute the raw and used bit depths (R48). -/
def recomputeBits (s : State) : State :=
  let raw := rawBitOf s
  s.setDepth { s.depth with rawBit := raw, usedBit := raw.map fun r => min r s.depth.hole }

/-- Recompute T in mode FOLLOWING, and the bit depths (R45, R48). -/
def recomputeTop (s : State) : State :=
  match s.depth.topMode with
  | .following => recomputeBits (s.setDepth { s.depth with top := followingTop s })
  | .held => s

/-- The slips view that channel SLIPS gives (R44). -/
def slipsViewOf (s : State) : SlipsView :=
  match held s 10 with
  | some 0 => .released
  | some _ => .set
  | none => .unknown

/-- The slips view follows channel SLIPS, and the T mode follows the view: setting captures T as BLOCK_HEIGHT then
gives it, releasing recomputes it (R44). -/
def slipsNotice (s : State) : State :=
  let view := slipsViewOf s
  if view = s.depth.slipsView then s
  else
    let s1 := s.setDepth { s.depth with slipsView := view }
    match s.depth.topMode, view with
    | .following, .set =>
      let s2 := recomputeTop s1
      s2.setDepth { s2.depth with topMode := .held }
    | .held, .released => recomputeTop (s1.setDepth { s1.depth with topMode := .following })
    | _, _ => s1

/-! ## Weights (R53 to R55) -/

/-- W_b from S_w and the mud density (R53). -/
def buoyedWeight (weight density : Nat) : Nat := weight / 1000 * (7850 - density) / 7850

/-- The suspended load S (R54). -/
def suspendedLoad (s : State) : Option Int :=
  match held s 6, settings s with
  | some h, some g => some ((h : Int) * 10 - g.blockWeight)
  | _, _ => none

/-- WOB_N for a suspended load (R54). -/
def wobOf (s : State) (load : Option Int) : Option Nat :=
  match load, s.rod.valid with
  | some x, true => some ((s.depth.buoyed : Int) - x).toNat
  | _, _ => none

/-- S − W_b where OVERPULL is judged (R55). -/
def overpullExcess (s : State) : Option Int :=
  match s.depth.suspended, s.rod.valid with
  | some x, true => some (x - s.depth.buoyed)
  | _, _ => none

/-- The condition of OVERPULL (R55); false while SETTINGS has no valid active copy (R43). -/
def overpull (s : State) : Bool :=
  match overpullExcess s, settings s with
  | some x, some g => decide ((g.overpullLimit : Int) < x)
  | _, _ => false

/-- Recompute S, WOB_N and OVERPULL (R54, R55). -/
def recomputeLoad (s : State) : State :=
  let load := suspendedLoad s
  let s1 := s.setDepth { s.depth with suspended := load, wobN := wobOf s load }
  setCondition srcOverpull (overpull s1) (fitSignedBits32 ((overpullExcess s1).getD 0)) s1

/-- Recompute W_b, and with it S, WOB_N and OVERPULL (R53 to R55). -/
def recomputeWeight (s : State) : State :=
  recomputeLoad (s.setDepth { s.depth with buoyed := buoyedWeight s.rod.weight ((held s 12).getD 1000) })

/-! ## Activity (R57 to R60) -/

/-- The last push or pop lies within the trip window (R57); false without SETTINGS (R43). -/
def recentRodMove (s : State) : Bool :=
  match settings s, s.depth.lastRodMove with
  | some g, some t => decide (s.now - t ≤ g.tripWindow * 1000)
  | _, _ => false

/-- The activity of a declared downtime (R61). -/
def Downtime.activity : Downtime → Option Activity
  | .none => Option.none
  | .standby => some Activity.standby
  | .repair => some Activity.repair

/-- The activity candidate: the first of nine tests that applies (R57). -/
def activityCandidate (s : State) : Activity :=
  if s.line.mode = .bypass then .untracked
  else match s.depth.downtime.activity with
    | some a => a
    | none =>
      if s.rod.valid = false ∧ rotating s then .untracked
      else if drilling s then .drilling
      else if rotating s then .reaming
      else if pumping s = false ∧ recentRodMove s then .tripping
      else if s.depth.slipsView = .set ∧ s.rod.string ≠ [] then .connection
      else if pumping s then .circulating
      else .idle

/-- The activity state becomes `a`; DRILLING_NO_FLOW is re-evaluated (R59, R60). -/
def setActivity (a : Activity) (s : State) : State :=
  if s.depth.activity = a then s else evalNoFlow (s.setDepth { s.depth with activity := a })

/-- The states that do not wait for the dwell (R59). -/
def Activity.immediate : Activity → Bool
  | .untracked | .standby | .repair => true
  | _ => false

/-- The dwell time in ms, none without SETTINGS. -/
def dwellMs (s : State) : Option Nat := (settings s).map fun g => g.dwellTime * 1000

/-- Set the held candidate and the dwell timer. -/
def setCandidate (x : Activity) (start : Option Nat) (s : State) : State :=
  s.setDepth { s.depth with candidate := x, dwellStart := start }

/-- Take a recomputed candidate against the state and the held candidate (R59). -/
def takeCandidate (x : Activity) (s : State) : State :=
  if x.immediate ∨ x = s.depth.activity then setActivity x (setCandidate x none s)
  else if x ≠ s.depth.candidate then
    if dwellMs s = some 0 then setActivity x (setCandidate x none s) else setCandidate x (some s.now) s
  else s

/-- Recompute the activity candidate and hand it to the dwell (R58). -/
def recomputeCandidate (s : State) : State := takeCandidate (activityCandidate s) s

/-- Whether the dwell timer has reached the dwell time (R59). -/
def dwellReached (s : State) : Bool :=
  match s.depth.dwellStart, dwellMs s with
  | some t, some d => decide (d ≤ s.now - t)
  | _, _ => false

/-- When the dwell timer has reached the dwell time the state becomes the held candidate and the timer stops
(R59). -/
def expireDwell (s : State) : State :=
  if dwellReached s then setActivity s.depth.candidate (setCandidate s.depth.candidate none s) else s

/-! ## Hole depth (R49 to R52) -/

/-- Set the conflict flag (R51). -/
def setConflict (b : Bool) (s : State) : State := s.setDepth { s.depth with conflict := b }

/-- An evaluation that finds a conflict (R51). -/
def findConflict (excess : Nat) (s : State) : State :=
  if s.depth.conflict then s else setConflict true (occurNat srcDepthConflict excess s)

/-- Take an advance: the new hole depth is in force, then the notices go out, the interval unit's first
(R50, R52, log 8). -/
def takeAdvance (raw excess : Nat) (s : State) : State :=
  let s1 := recomputeBits (s.setDepth { s.depth with hole := raw, conflict := false })
  circAdvance excess (intervalAdvance excess raw (s.depth.wobN.getD 0) s1)

/-- Evaluate a hole advance (R50, R51); none is evaluated without SETTINGS (R43). -/
def evalAdvance (s : State) : State :=
  match settings s, s.depth.rawBit with
  | some g, some raw =>
    if raw ≤ s.depth.hole then setConflict false s
    else if rotating s ∧ wobReached s g ∧ raw - s.depth.hole ≤ g.maxAdvance then
      takeAdvance raw (raw - s.depth.hole) s
    else findConflict (raw - s.depth.hole) s
  | _, _ => s

/-- A string change: bit depths, hole advance, weights, activity candidate, in turn (R47). -/
def stringChange (s : State) : State :=
  recomputeCandidate (recomputeWeight (evalAdvance (recomputeBits s)))

/-- Move a held T by a rod's length (R46). -/
def moveTop (x : Int) (s : State) : State :=
  match s.depth.topMode with
  | .held => s.setDepth { s.depth with top := s.depth.top.map fun t => fitSigned32 (t + x) }
  | .following => s

/-- A push or pop notice: its time, T, and the string change (R46, R47). -/
def rodMoveNotice (x : Int) (s : State) : State :=
  stringChange (moveTop x (s.setDepth { s.depth with lastRodMove := some s.now }))

/-- A commit notice: a HELD T takes the height the load carries (R47). -/
def commitNotice (top : Option Int) (s : State) : State :=
  match s.depth.topMode with
  | .held => stringChange (s.setDepth { s.depth with top := top })
  | .following => stringChange s

/-- What the depth unit holds of its channels, brought up to the values they hold: the slips view with its T mode, T,
the bit depths, W_b, S, WOB and OVERPULL. Where one frame carries several of its channels, all of them have taken
their values before either notice goes out, and the unit sees them all when it acts on one (R27, log 22). -/
def depthSees (s : State) : State := recomputeWeight (recomputeTop (slipsNotice s))

/-- An accepted BLOCK_HEIGHT sample as the depth unit takes it: the hole advance with its notices first, then the
activity candidate (R27, R45, R48, R50, R58; the order: DESIGN CHOICE, log 36). -/
def blockHeightSample (s : State) : State :=
  recomputeCandidate (evalAdvance (recomputeBits (depthSees s)))

/-- An accepted sample of channel 0, 1, 6, 8 or 10 as the depth unit takes it (R27, R44, R54, R58). -/
def depthSample (s : State) : State := recomputeCandidate (depthSees s)

/-- The depth unit at a SETTINGS activation: T and the bit depths, the weights, the candidate, and last a dwell that has
run (R43, R59; the order: log 26). -/
def depthSettings (s : State) : State :=
  expireDwell (recomputeCandidate (recomputeWeight (recomputeBits (recomputeTop s))))

/-- The depth unit at JOB_START (R49, R62): steps 1 and 2 of R150. -/
def depthJobStart (hole : Nat) (s : State) : State :=
  recomputeBits (s.setDepth { s.depth with
    hole := hole, conflict := false, jobClock := 0, clockRuns := true, secondStart := s.now })

/-! ## Line modes (R13, R16, R17) -/

/-- The line mode becomes `m`: the BYPASS output follows it and STATUS is due (R13). -/
def setMode (m : LineMode) (s : State) : State :=
  statusDue .mode (driveBypass (s.setLine { s.line with mode := m }))

/-- A change between OBSERVE and GOVERN: STATUS is due, then the activity candidate is recomputed (R16, R58; the
order: log 9). -/
def changeInLine (m : LineMode) (s : State) : State := recomputeCandidate (setMode m s)

/-- Leaving BYPASS for OBSERVE or GOVERN: STATUS with cause MODE, then the suspension of the pit balance, then the
activity candidate. In GOVERN a STOP_PUMPS class that the suspension makes ACTIVE brings its injections
(R16, R58, R107, R183, R191; the order: log 9; the injections: DESIGN CHOICE, log 33). -/
def leaveBypass (m : LineMode) (s : State) : State := recomputeCandidate (pitLeaveBypass (setMode m s))

/-- The string has become INVALID: in GOVERN the mode drops to OBSERVE, and then GOVERN_DROPPED occurs (R17; the order:
log 26). -/
def governDrop (s : State) : State :=
  if s.line.mode = .govern then occurNat srcGovernDropped 0 (changeInLine .observe s) else s

end Sys2Proof.Machine
end

