-- ==== Sys2Proof/Machine/Rods.lean ====
section
/-! DEFINITION. The rod unit (chapter 4): the rod table, the string, make-up, break-out, fatigue, ROD records; and the
request steps on rods and on the string. -/

namespace Sys2Proof.Machine

/-! ## Rod records and sums (R66, R74) -/

/-- The largest value of the fatigue clock and of an accumulator: 2^63 − 1 (R66, R84). -/
def maxFatigue : Nat := 9223372036854775807

/-- The record of a tag (R66). -/
def findRod (s : State) (tag : Nat) : Option Rod := s.rod.table.find? fun r => r.tag == tag

/-- Replace the rod records of a tag. -/
def updateRod (tag : Nat) (f : Rod → Rod) (s : State) : State :=
  s.setRod { s.rod with table := s.rod.table.map fun r => if r.tag = tag then f r else r }

/-- The rods of the string, bottom to top. -/
def stringRods (s : State) : List Rod := s.rod.string.filterMap (findRod s)

/-- A rod's weight term, mN (R74). -/
def weightTerm (s : State) (r : Rod) : Nat := (rodClass s r.cls).weight * r.length

/-- A rod's steel volume, µL (R74). -/
def steelTerm (s : State) (r : Rod) : Nat := (rodClass s r.cls).steel * r.length

/-- Recompute L, S_w and S_disp over the whole string (R74). -/
def recomputeSums (s : State) : State :=
  let rods := stringRods s
  s.setRod { s.rod with
    length := (rods.map (·.length)).sum
    weight := (rods.map (weightTerm s)).sum
    steel := (rods.map (steelTerm s)).sum }

/-! ## Fatigue (R84, R85) -/

/-- A rod's term of the string fatigue limit: entry mark + threshold_internal − accumulator (R85). -/
def limitTerm (s : State) (r : Rod) : Int :=
  fitSigned64 (((r.entry.getD 0 + thresholdInternal s r.cls : Nat) : Int) - r.fatigue)

/-- The rod that gives the minimum, the lowest position among equal minima, with its term (R85). -/
def limitingRod (s : State) : Option (Rod × Int) :=
  (stringRods s).foldl (fun best r =>
    match best with
    | none => some (r, limitTerm s r)
    | some (b, x) => if limitTerm s r < x then some (r, limitTerm s r) else some (b, x)) none

/-- Re-evaluate STRING_FATIGUE: true while the limit is present and F is at or above it (R85). -/
def evalFatigue (s : State) : State :=
  let reached := match s.rod.fatigueLimit with
    | some x => decide (x ≤ s.rod.fatigueClock)
    | none => false
  let tag := match limitingRod s with
    | some (r, _) => r.tag
    | none => 0
  setCondition srcStringFatigue reached (BitVec.ofNat 32 tag) s

/-- Recompute the string fatigue limit and re-evaluate STRING_FATIGUE (R85). -/
def recomputeFatigue (s : State) : State :=
  evalFatigue (s.setRod { s.rod with fatigueLimit := (limitingRod s).map (·.2) })

/-- The weight of a torque at the current class under a FATIGUE copy (R83, R84). -/
def fatigueWeight (pages : List Page) (torque cls : Nat) : Nat :=
  fatigueWeightIn pages (8 * min 7 (torque / bandWidthIn pages) + cls)

/-- An accepted ROTARY_TORQUE sample advances F (R84). -/
def fatigueSample (torque dt : Nat) (s : State) : State :=
  match activeCopy s tFatigue, held s 8 with
  | some pages, some n =>
    if n = 0 then s
    else
      let gain := n * torqueTime dt s * fatigueWeight pages torque s.interval.currentClass
      evalFatigue (s.setRod { s.rod with fatigueClock := min maxFatigue (s.rod.fatigueClock + gain) })
  | _, _ => s

/-! ## ROD records (R86, R87) -/

/-- Fatigue in weighted kilo-revolutions (R69, R86). -/
def krev (x : Nat) : Nat := min 4294967294 (x / kiloRev)

/-- Number of a rod state (R5). -/
def RodPlace.num : RodPlace → Nat
  | .rack => 0
  | .string => 1
  | .retired => 2
  | .quarantine => 3

/-- The ROD record of a push (action 0) or pop (action 1) of a rod at a position (R5, R86). -/
def rodRecord (r : Rod) (action position torque : Nat) (s : State) : RecordBody where
  type := 1
  frames := [[w16 r.tag, wBytes action position, w16 r.place.num, w16 torque] ++ w32 (krev r.fatigue) ++
    w32 s.depth.hole ++ w32Opt s.depth.usedBit ++ w32 (jobTime s) ++ [wBytes r.cls (bit r.inspect)]]

/-- The oldest ROD record enters the record queue where it fits: ROD is first in admission order (R23, R87). -/
def admitRod (s : State) : State :=
  match s.rod.out with
  | r :: _ => if r.frames.length ≤ recordRoom s then admitOne .rod r s else s
  | [] => s

/-- Where the record queue is full, so that no record can enter, RECORD_QUEUE_FULL occurs for each record that has begun to
wait and has not been judged in the step, those it brings itself included (R23). -/
def judgeFull (s : State) : State := if recordRoom s = 0 then judgeWaits admissionOrder.length s else s

/-- Offer a ROD record to the out-queue; one that finds 16 there is lost. The offer does not wait for the end of the step,
so that the pops of one TONG_BREAKOUTS sample fill the out-queue only where the record queue has no room, and with the
record queue full the waits begun before the offer, and then its own, bring RECORD_QUEUE_FULL at once, so that the loss of
a record comes after them (R23, R80, R87; DESIGN CHOICE, log 4). -/
def offerRodRecord (r : RecordBody) (s : State) : State :=
  let s1 := judgeFull s
  judgeFull (if s1.rod.out.length < 16 then admitRod (s1.setRod { s1.rod with out := s1.rod.out ++ [r] })
    else occurNat srcQueueFull 257 s1)

/-! ## The candidate (R75, R76) -/

/-- Set or clear the candidate (R75, R76). -/
def setRodCandidate (c : Option Nat) (s : State) : State := s.setRod { s.rod with candidate := c }

/-- A lookup that clears the candidate and raises ROD_UNAVAILABLE with a cause (R75). -/
def rodUnavailable (tag cause : Nat) (s : State) : State :=
  occurNat srcRodUnavailable (tag * 65536 + cause) (setRodCandidate none s)

/-- An accepted ROD_TAG sample (R75); 0 leaves the candidate as it is. -/
def tagSample (tag : Nat) (s : State) : State :=
  if tag = 0 then s
  else match findRod s tag with
    | none => occurNat srcRodUnknown tag (setRodCandidate none s)
    | some r => match r.place with
      | .rack =>
        if isActive s tRodclass = false then rodUnavailable tag 5 s
        else if (rodClass s r.cls).kind = kindBit ∧ s.rod.string ≠ [] then rodUnavailable tag 4 s
        else setRodCandidate (some tag) s
      | .string => if s.rod.string.getLast? = some tag then s else rodUnavailable tag 1 s
      | .retired => rodUnavailable tag 2 s
      | .quarantine => rodUnavailable tag 3 s

/-! ## Validity (R70, R71, R77) -/

/-- The string becomes INVALID if it was VALID: the line interface takes the notice, then the depth unit
(R17, R47, R70; the order: log 26). -/
def invalidate (s : State) : State :=
  if s.rod.valid then stringChange (governDrop (s.setRod { s.rod with valid := false })) else s

/-- A make-up completion that pushes nothing, with its cause: UNTRACKED_CONNECTION, then the notices, then
STRING_INVALID (R77; the order: log 26). -/
def untrackedMakeup (cause torque : Nat) (s : State) : State :=
  setCondition srcStringInvalid true (BitVec.ofNat 32 cause)
    (invalidate (setRodCandidate none (occurNat srcUntracked (cause * 65536 + torque) s)))

/-! ## Make-up (R77 to R79, R82) -/

/-- A torque lies within a class's window (R79). -/
def torqueInWindow (k : RodClass) (torque : Nat) : Bool := decide (k.torqueMin ≤ torque ∧ torque ≤ k.torqueMax)

/-- The candidate's tag goes on top of the string (R78). -/
def stackTag (tag : Nat) (s : State) : State := s.setRod { s.rod with string := s.rod.string ++ [tag] }

/-- A rod's record as it enters the string: state STRING, entry mark F, runs plus one (R78). -/
def enterString (mark : Nat) (x : Rod) : Rod :=
  { x with place := .string, entry := some mark, runs := min 65535 (x.runs + 1) }

/-- A make-up torque outside the class's window sets the inspect flag and MAKEUP_TORQUE occurs (R79). -/
def judgeTorque (r : Rod) (torque : Nat) (s : State) : State :=
  if torqueInWindow (rodClass s r.cls) torque then s
  else occurNat srcMakeupTorque (r.tag * 65536 + torque) (updateRod r.tag (fun x => { x with inspect := true }) s)

/-- A rod's terms are added to the sums (R74). -/
def addSums (r : Rod) (s : State) : State :=
  s.setRod { s.rod with
    length := s.rod.length + r.length
    weight := s.rod.weight + weightTerm s r
    steel := s.rod.steel + steelTerm s r }

/-- The rod unit's part of a push: string, record, torque, sums, fatigue limit, candidate (R78). -/
def pushInUnit (r : Rod) (torque : Nat) (s : State) : State :=
  let s1 := updateRod r.tag (enterString s.rod.fatigueClock) (stackTag r.tag s)
  setRodCandidate none (recomputeFatigue (addSums r (judgeTorque r torque s1)))

/-- Push the candidate: the steps of R78 in their order. -/
def pushRod (r : Rod) (torque : Nat) (s : State) : State :=
  let s1 := pushInUnit r torque s
  let s2 := pitAdjustment (steelTerm s1 r) (rodMoveNotice r.length s1)
  match findRod s2 r.tag with
  | some x => offerRodRecord (rodRecord x 0 s.rod.string.length torque s2) s2
  | none => s2

/-- The cause of a make-up completion without a candidate: 1, and open between 1 and 2 where the string holds 250 rods
as well (R77, log 24). -/
def noCandidateCause (s : State) : Nat :=
  if s.rod.string.length < 250 then 1 else if Config.untrackedAsFull then 2 else 1

/-- One make-up completion with a torque (R77, R78). A candidate always has its record (R68). -/
def makeup (torque : Nat) (s : State) : State :=
  match s.rod.candidate.bind (findRod s) with
  | none => untrackedMakeup (noCandidateCause s) torque s
  | some r => if 250 ≤ s.rod.string.length then untrackedMakeup 2 torque s else pushRod r torque s

/-! ## Break-out (R80 to R82) -/

/-- A rod's accumulator after banking F less its entry mark (R81). -/
def bankedFatigue (s : State) (r : Rod) : Nat := min maxFatigue (r.fatigue + (s.rod.fatigueClock - r.entry.getD 0))

/-- The state a rod leaves the string into, on a banked accumulator (R81). -/
def leavingPlace (s : State) (r : Rod) (banked : Nat) : RodPlace :=
  if thresholdInternal s r.cls ≤ banked then .retired else if r.inspect then .quarantine else .rack

/-- A rod as it leaves the string: banked, placed, its entry mark no longer held (R81). -/
def leaveString (s : State) (r : Rod) : Rod :=
  { r with
    fatigue := bankedFatigue s r
    place := leavingPlace s r (bankedFatigue s r)
    entry := none }

/-- A rod has retired: ROD_RETIRED occurs (R73, R81). -/
def retireOccurrence (r : Rod) (s : State) : State :=
  if r.place = .retired then occurNat srcRodRetired r.tag s else s

/-- The billing unit is told of a retirement (R82). -/
def retireBilling (r : Rod) (s : State) : State := if r.place = .retired then billRod s else s

/-- The top tag leaves the string (R81). -/
def unstackTag (s : State) : State := s.setRod { s.rod with string := s.rod.string.dropLast }

/-- A rod's terms are taken from the sums (R74). -/
def subSums (r : Rod) (s : State) : State :=
  s.setRod { s.rod with
    length := s.rod.length - r.length
    weight := s.rod.weight - weightTerm s r
    steel := s.rod.steel - steelTerm s r }

/-- The rod unit's part of a pop, `x` being the record the rod leaves with: string, record, ROD_RETIRED where it occurs,
sums, fatigue limit, candidate (R81; the place of ROD_RETIRED: log 27). -/
def popInUnit (r x : Rod) (s : State) : State :=
  let s1 := retireOccurrence x (updateRod r.tag (fun _ => x) (unstackTag s))
  setRodCandidate none (recomputeFatigue (subSums r s1))

/-- Pop the top rod: the steps of R81 in their order. -/
def popRod (r : Rod) (s : State) : State :=
  let x := leaveString s r
  let s1 := popInUnit r x s
  let s2 := pitAdjustment (-(steelTerm s1 r : Int)) (rodMoveNotice (-(r.length : Int)) s1)
  let s3 := retireBilling x s2
  offerRodRecord (rodRecord x 1 (s.rod.string.length - 1) 0 s3) s3

/-- One break-out completion (R80). -/
def breakout (s : State) : State :=
  match s.rod.string.getLast?.bind (findRod s) with
  | none => occurNat srcUntracked (3 * 65536) s
  | some r => popRod r s

/-- The break-out completions of a TONG_BREAKOUTS delta, one after another (R80). -/
def breakouts : Nat → State → State
  | 0, s => s
  | n + 1, s => breakouts n (breakout s)

/-- RODCLASS has been activated: sums, fatigue limit, string notice (R65; the order: log 27). -/
def rodclassActivated (s : State) : State := stringChange (recomputeFatigue (recomputeSums s))

/-! ## RACK_ADD, RACK_REMOVE, ROD_READ (R67 to R69) -/

/-- The number of the first offending value of a RACK_ADD, none when all are in range (R67). -/
def rackAddFault (f : Frame) : Option Nat :=
  if f.val 0 = 0 then some 0
  else if 15 < f.val 1 then some 1
  else if f.val 2 < 300 ∨ 12000 < f.val 2 then some 2
  else if 1 < f.val 5 then some 5
  else none

/-- The rod record a RACK_ADD creates (R67). -/
def rackRod (f : Frame) : Rod where
  tag := f.val 0
  cls := f.val 1
  length := f.val 2
  place := .rack
  fatigue := f.val32 3 * kiloRev
  entry := none
  inspect := f.val 5 == 1
  runs := 0

/-- Carry out a RACK_ADD request (R67). -/
def rackAddBody (f : Frame) (s : State) : State × Option Reply :=
  match rackAddFault f with
  | some i => (s, some (Reply.values .badValue [w16 i]))
  | none => match findRod s (f.val 0) with
    | some r => (s, some (Reply.values .duplicate [w16 r.place.num]))
    | none =>
      if 256 ≤ s.rod.table.length then (s, some (Reply.echo .full))
      else (s.setRod { s.rod with table := s.rod.table ++ [rackRod f] }, some (Reply.echo .ok))

/-- RACK_ADD (R67). -/
def execRackAdd (s : State) : Host.Outcome State Fault Refusal :=
  .next (takeRequest (· == 5) (· == 6) false rackAddBody s)

/-- Carry out a RACK_REMOVE request (R68). -/
def rackRemoveBody (f : Frame) (s : State) : State × Option Reply :=
  match findRod s (f.val 0) with
  | none => (s, some (Reply.echo .notFound))
  | some r =>
    if r.place = .string then (s, some (Reply.echo .inString))
    else
      (s.setRod { s.rod with
          table := s.rod.table.filter fun x => x.tag != f.val 0
          candidate := if s.rod.candidate = some (f.val 0) then none else s.rod.candidate },
        some (Reply.echo .ok))

/-- RACK_REMOVE (R68). -/
def execRackRemove (s : State) : Host.Outcome State Fault Refusal :=
  .next (takeRequest (· == 6) (· == 1) false rackRemoveBody s)

/-- A rod's fatigue as ROD_READ gives it: live for a rod in STRING (R69). -/
def liveFatigue (s : State) (r : Rod) : Nat :=
  if r.place = .string then r.fatigue + (s.rod.fatigueClock - r.entry.getD 0) else r.fatigue

/-- The values of a ROD_READ answer (R69). -/
def rodReadValues (s : State) (r : Rod) : List Word :=
  [w16 r.tag, w16 r.cls, if isActive s tRodclass then w16 (rodClass s r.cls).kind else 65535, w16 r.length,
    w16 r.place.num] ++ w32 (krev (liveFatigue s r)) ++
  [w16 (bit r.inspect), w16 r.runs,
    if r.place = .string then w16Opt (s.rod.string.idxOf? r.tag) else 65535,
    w16 (bit (s.rod.candidate == some r.tag))]

/-- Carry out a ROD_READ request (R69). -/
def rodReadBody (f : Frame) (s : State) : State × Option Reply :=
  match findRod s (f.val 0) with
  | none => (s, some (Reply.echo .notFound))
  | some r => (s, some (Reply.values .ok (rodReadValues s r)))

/-- ROD_READ (R69). -/
def execRodRead (s : State) : Host.Outcome State Fault Refusal :=
  .next (takeRequest (· == 7) (· == 1) false rodReadBody s)

/-! ## STRING_LOAD (R72) -/

/-- Carry out a STRING_LOAD request: page number, COUNT, header values, in that order (R72). -/
def stringLoadBody (f : Frame) (s : State) : State × Option Reply :=
  let page := f.val 0
  if 21 < page then (s, some (Reply.echo .badPage))
  else if f.values.length ≠ (if page = 0 then 5 else 13) then (s, some (Reply.echo .badRequest))
  else if page = 0 then
    if 250 < f.val 1 ∨ 1 < f.val 2 then (s, some (Reply.echo .badValue))
    else
      (s.setRod { s.rod with
          loadHeader := some
            { count := f.val 1, top := if f.val 2 = 1 then some (f.valSigned32 3) else none } },
        some (Reply.echo .ok))
  else
    (s.setRod { s.rod with
        loadPages := s.rod.loadPages.setIfInBounds (page - 1) (some ((f.values.drop 1).map (·.toNat))) },
      some (Reply.echo .ok))

/-- STRING_LOAD (R72). -/
def execStringLoad (s : State) : Host.Outcome State Fault Refusal :=
  .next (takeRequest (· == 8) (fun n => n == 5 || n == 13) false stringLoadBody s)

/-! ## STRING_COMMIT (R73) -/

/-- The tag in a slot of the load buffer, 0 where its page is not loaded (R72). -/
def loadSlot (s : State) (i : Nat) : Nat :=
  match s.rod.loadPages[i / 12]? with
  | some (some tags) => tags.getD (i % 12) 0
  | _ => 0

/-- The tags of slots 0 to n − 1 (R72). -/
def loadTags (s : State) (n : Nat) : List Nat := (List.range n).map (loadSlot s)

/-- The first page not loaded among the header and the tag pages that hold a slot below n (R73). -/
def missingLoadPage (s : State) : Option Nat :=
  match s.rod.loadHeader with
  | none => some 0
  | some h =>
    ((List.range 21).find? fun p => decide (12 * p < h.count) && ((s.rod.loadPages[p]?.bind id).isNone)).map (· + 1)

/-- The state a rod has or, in the present string, would have after its return (R73). -/
def returnPlace (s : State) (r : Rod) : RodPlace :=
  if r.place = .string then leavingPlace s r (bankedFatigue s r) else r.place

/-- What is wrong with slot i of a load, whose earlier slots hold `earlier` (R73, order 4). -/
def slotFault (s : State) (earlier : List Nat) (tag i : Nat) : Option Reply :=
  match (if tag = 0 then none else findRod s tag) with
  | none => some (Reply.values .notFound [w16 i])
  | some r =>
    if earlier.contains tag then some (Reply.values .duplicate [w16 i])
    else if returnPlace s r = .retired ∨ returnPlace s r = .quarantine then
      some (Reply.values .badValue [w16 i, w16 (returnPlace s r).num])
    else if (rodClass s r.cls).kind = kindBit ∧ i ≠ 0 then some (Reply.values .badValue [w16 i, 4])
    else none

/-- The first fault among the slots, from slot i on (R73). -/
def slotsFault (s : State) : List Nat → Nat → List Nat → Option Reply
  | _, _, [] => none
  | earlier, i, tag :: rest =>
    match slotFault s earlier tag i with
    | some r => some r
    | none => slotsFault s (earlier ++ [tag]) (i + 1) rest

/-- Why a STRING_COMMIT is refused, none when every check passes (R73). -/
def commitFault (s : State) : Option Reply :=
  if s.line.mode = .govern then some (Reply.echo .busy)
  else if isActive s tRodclass = false then some (Reply.echo .notReady)
  else match missingLoadPage s, s.rod.loadHeader with
    | some p, _ => some (Reply.values .incomplete [w16 p])
    | none, some h => slotsFault s [] 0 (loadTags s h.count)
    | none, none => some (Reply.values .incomplete [0])

/-- Step 1 of a commit for one rod of the present string (R73). -/
def returnRod (tag : Nat) (s : State) : State :=
  match findRod s tag with
  | none => s
  | some r =>
    let x := leaveString s r
    retireBilling x (retireOccurrence x (updateRod tag (fun _ => x) s))

/-- Step 1 of a commit: the rods of the present string are returned, from the top down (R73). -/
def returnRods : List Nat → State → State
  | [], s => s
  | tag :: rest, s => returnRods rest (returnRod tag s)

/-- Step 2 of a commit for one rod of the load; `old` is the string before the commit (R73). -/
def placeRod (old : List Nat) (tag : Nat) (s : State) : State :=
  updateRod tag (fun x =>
    { x with
      place := .string
      entry := some s.rod.fatigueClock
      runs := if old.contains tag then x.runs else min 65535 (x.runs + 1) }) s

/-- Step 2 of a commit: the rods of the load are placed, from slot 0 upward (R73). -/
def placeRods (old : List Nat) : List Nat → State → State
  | [], s => s
  | tag :: rest, s => placeRods old rest (placeRod old tag s)

/-- Carry out a commit that has passed its checks, the load being `tags` (R73). -/
def carryOutCommit (tags : List Nat) (top : Option Int) (s : State) : State :=
  let old := s.rod.string
  let wasValid := s.rod.valid
  let s1 := placeRods old tags (returnRods old.reverse s)
  let s2 := s1.setRod { s1.rod with string := tags, valid := true }
  let s3 := setRodCandidate none (report srcStringInvalid false s2)
  let s4 := recomputeFatigue (recomputeSums s3)
  let s5 := s4.setRod { s4.rod with loadHeader := none, loadPages := Vector.replicate 21 none }
  let s6 := commitNotice top s5
  if wasValid then s6 else stringChange s6

/-- Carry out a STRING_COMMIT request (R73). -/
def stringCommitBody (_f : Frame) (s : State) : State × Option Reply :=
  match commitFault s, s.rod.loadHeader with
  | some r, _ => (s, some r)
  | none, some h =>
    (carryOutCommit (loadTags s h.count) h.top s, some (Reply.values .ok [w16 h.count]))
  | none, none => (s, some (Reply.values .incomplete [0]))

/-- STRING_COMMIT (R73). -/
def execStringCommit (s : State) : Host.Outcome State Fault Refusal :=
  .next (admitted s (takeRequest (· == 9) (· == 0) false stringCommitBody s))

end Sys2Proof.Machine
end

