-- ==== Sys2Proof/Machine/Channels.lean ====
section
/-! DEFINITION. The channel unit (chapter 2): samples, value states, limit records, the activation of CHANNEL; and entry to
BYPASS, at which every channel is made ABSENT. -/

namespace Sys2Proof.Machine

/-! ## Calibration (R34, R35) -/

/-- The signed straight-line value of a clamped raw reading, an exact half rounded away from zero (R34). -/
def calibrated (r lo hi : Nat) (engLow engHigh : Int) : Int :=
  let num := ((r : Int) - lo) * (engHigh - engLow)
  let den := hi - lo
  let q := (num.natAbs + den / 2) / den
  if 0 ≤ num then engLow + q else engLow - q

/-- A raw analog reading as its value, clamped to the range, and whether either clamp was needed (R34, R35). -/
def calibrate (r lo hi : Nat) (engLow engHigh : Int) (range : Nat × Nat) : Nat × Bool :=
  let rc := min hi (max lo r)
  let x := calibrated rc lo hi engLow engHigh
  let v := min (range.2 : Int) (max (range.1 : Int) x)
  (v.toNat, decide (rc ≠ r) || decide (v ≠ x))

/-- The calibration of a channel's page (R34, R40). -/
def calibrateOn (s : State) (c : Ch) (r : Nat) : Nat × Bool :=
  calibrate r (rawLo s c) (rawHi s c) (engLo s c) (engHi s c) (channelRange c)

/-! ## One channel's state -/

/-- Replace a channel. -/
def setChannel (c : Ch) (x : Channel) (s : State) : State := s.setChannels (s.channels.set c x)

/-- An occurrence of CH_FAULT_c with a cause and an auxiliary (R31). -/
def channelOccur (c : Ch) (cause aux : Nat) (s : State) : State :=
  occurNat (srcChFault c) (cause * 65536 + aux) s

/-- Report the condition of CH_FAULT_c (R31). -/
def reportFault (c : Ch) (s : State) : State := report (srcChFault c) (channelFault s c) s

/-- The state of one of a channel's limit records. -/
def Channel.limit (x : Channel) : LimitNo → LimitState
  | .l1 => x.limit1
  | .l2 => x.limit2

/-- A channel with another state of a limit record. -/
def Channel.withLimit (x : Channel) (l : LimitNo) (st : LimitState) : Channel :=
  match l with
  | .l1 => { x with limit1 := st }
  | .l2 => { x with limit2 := st }

/-- Report the condition of a limit record: true while it is TRIPPED (R36). -/
def reportLimit (c : Ch) (l : LimitNo) (s : State) : State :=
  match limitSource c l with
  | some src => report src (s.channels[c].limit l == .tripped) s
  | none => s

/-- Report both limits of a channel. -/
def reportLimits (c : Ch) (s : State) : State := reportLimit c .l2 (reportLimit c .l1 s)

/-! ## Limit evaluation (R37) -/

/-- A limit record's state after an accepted value v (R37). -/
def limitAfter (ctl : LimitControl) (threshold hysteresis v : Int) (st : LimitState) : LimitState :=
  match ctl, st with
  | .off, _ => st
  | .above, .armed => if threshold < v then .tripped else .armed
  | .below, .armed => if v < threshold then .tripped else .armed
  | .above, .tripped => if v ≤ threshold - hysteresis then .armed else .tripped
  | .below, .tripped => if threshold + hysteresis ≤ v then .armed else .tripped
  | .above, .rearming => if v ≤ threshold then .armed else .rearming
  | .below, .rearming => if threshold ≤ v then .armed else .rearming

/-- A limit record's next state on its configuration in the active CHANNEL (R37). -/
def limitNext (s : State) (c : Ch) (l : LimitNo) (v : Nat) : LimitState :=
  let pages := activePages s tChannel
  limitAfter (limitControlIn pages c l) (limitThresholdIn pages c l) (limitHysteresisIn pages c l) v
    (s.channels[c].limit l)

/-- Evaluate a limit on an accepted value: the state, the condition, and the occurrence of a trip (R37). -/
def evalLimit (c : Ch) (v : Nat) (l : LimitNo) (s : State) : State :=
  let before := s.channels[c].limit l
  let next := limitNext s c l v
  let s1 := reportLimit c l (setChannel c (s.channels[c].withLimit l next) s)
  match limitSource c l with
  | some src => if next = .tripped ∧ before ≠ .tripped then occurNat src v s1 else s1
  | none => s1

/-! ## Notices (R27) -/

/-- A state notice of a channel to its readers (R44, R45, R53, R54, R89, R99, R103). A notice of LIVE or STALE leaves
what the readers hold as the value gives it. -/
def stateNotice (c : Ch) (v : ValueState) (s : State) : State :=
  let gone := v.isAbsent || v == .lost
  match c.val with
  | 0 => if gone then setRate .one none s else s
  | 1 => if gone then setRate .two none s else s
  | 3 => evalReturnLow s
  | 4 => pitStateNotice v s
  | 6 => recomputeLoad s
  | 7 => recomputeTop s
  | 10 => slipsNotice s
  | 12 => recomputeWeight s
  | _ => s

/-- A baseline notice at a counter's settle sample (R27, R89). -/
def baselineNotice (c : Ch) (s : State) : State :=
  match c.val with
  | 0 => setRate .one (some 0) s
  | 1 => setRate .two (some 0) s
  | _ => s

/-- The notice of an accepted sample to the channel's readers in the order of R25: its value, delta and Δt, and the
state the channel had (R27, log 8). -/
def acceptedNotice (c : Ch) (v delta dt : Nat) (before : ValueState) (s : State) : State :=
  match c.val with
  | 0 => depthSample (strokeSample .one delta dt s)
  | 1 => depthSample (strokeSample .two delta dt s)
  | 2 => pressureSample v s
  | 3 => evalReturnLow s
  | 4 => pitVolumeSample v before s
  | 5 => billWater delta (waterSample delta s)
  | 6 => depthSample s
  | 7 => blockSample v (blockHeightSample s)
  | 8 => depthSample s
  | 9 => intervalTorque v dt (fatigueSample v dt s)
  | 10 => depthSample s
  | 11 => makeup v s
  | 12 => recomputeWeight s
  | 13 => handlerSample v s
  | 14 => tagSample v s
  | _ => breakouts delta s

/-! ## Taking a sample (R26, R27, R29, R32, R33) -/

/-- What became of a channel's value in a frame. -/
inductive Taken where
  | short (count : Nat)
  | outOfSet (raw : Nat)
  | settled (before : ValueState) (raw : Nat) (clamped : Bool)
  | accepted (before : ValueState) (raw value : Nat) (clamped : Bool) (delta : Nat) (jump : Option Nat) (dt : Nat)
  deriving DecidableEq, Repr

/-- Whether a channel in a state takes its next sample as a settle sample (R29). -/
def ValueState.settles : ValueState → Bool
  | .absentUnsettled | .lost => true
  | _ => false

/-- A raw value in engineering units, with whether it was clamped; only analog channels calibrate (R25). -/
def engineering (s : State) (c : Ch) (raw : Nat) : Nat × Bool :=
  match channelKind c with
  | .analog => calibrateOn s c raw
  | _ => (raw, false)

/-- A channel takes its settle sample (R29). -/
def settle (s : State) (c : Ch) (raw : Nat) : Channel × Taken :=
  let x := s.channels[c]
  ({ x with
      state := .absentSettled
      value := none
      mark := false
      baseline := if channelKind c = .counter then some raw else none
      takenAt := s.now },
    .settled x.state raw (engineering s c raw).2)

/-- A counter's delta from its baseline, modulo 65,536 (R32). A counter that accepts has a baseline (R29). -/
def counterDelta (x : Channel) (raw : Nat) : Nat := (raw + 65536 - x.baseline.getD raw) % 65536

/-- A channel accepts a sample (R27, R32, R35). -/
def accept (s : State) (c : Ch) (raw : Nat) : Channel × Taken :=
  let x := s.channels[c]
  let (v, clamped) := engineering s c raw
  let counter := channelKind c == .counter
  let d := if counter then counterDelta x raw else 0
  let jumped := decide (jumpLimit s c < d)
  ({ x with
      state := .live
      value := some v
      mark := clamped
      baseline := if counter then some raw else none
      takenAt := s.now },
    .accepted x.state raw v clamped (if jumped then 0 else d) (if counter && jumped then some d else none)
      (channelAge s c))

/-- A channel takes the raw value a frame carries for it (R27, R29, R33). -/
def takeRaw (s : State) (c : Ch) (raw : Nat) : Channel × Taken :=
  let x := s.channels[c]
  if channelKind c = .discrete ∧ discreteMax c < raw then (x, .outOfSet raw)
  else if x.state.settles then settle s c raw
  else accept s c raw

/-- A matched channel reads its value index of the frame, or finds the frame short (R26). -/
def takeFrom (s : State) (f : Frame) (c : Ch) : Channel × Taken :=
  match (binding s c).bind fun b => f.values[b.index]? with
  | some w => takeRaw s c w.toNat
  | none => (s.channels[c], .short f.values.length)

/-- The jump of a counter's delta is reported (R32). -/
def jumpOccur (c : Ch) : Option Nat → State → State
  | some d, s => channelOccur c 4 d s
  | none, s => s

/-- What a taken value brings once every matched channel has taken its own: the report of CH_FAULT and its occurrences,
limit 1, limit 2, the notice of the sample, the state notice (R27, R31, R35, R37; the order, but that the limits come
before the notice: log 25). -/
def takenEffects (c : Ch) (t : Taken) (s : State) : State :=
  match t with
  | .short n => channelOccur c 5 n s
  | .outOfSet raw => channelOccur c 3 raw s
  | .settled before raw clamped =>
    let s1 := reportFault c s
    let s2 := if clamped then channelOccur c 3 raw s1 else s1
    let s3 := if c = 11 then channelOccur c 6 raw s2 else s2
    let s4 := if before = .lost then stateNotice c .absentSettled s3 else s3
    if channelKind c = .counter then baselineNotice c s4 else s4
  | .accepted before raw v clamped delta jump dt =>
    let s1 := reportFault c s
    let s2 := if clamped then channelOccur c 3 raw s1 else s1
    let s3 := jumpOccur c jump s2
    let s4 := evalLimit c v .l2 (evalLimit c v .l1 s3)
    let s5 := acceptedNotice c v delta dt before s4
    if before = .live then s5 else stateNotice c .live s5

/-- The bound channels whose node and tag a SAMPLE frame's NODE and TAG equal (R26). -/
def matchedChannels (s : State) (f : Frame) : List Ch :=
  (List.finRange 16).filter fun c =>
    match binding s c with
    | some b => b.node == f.node.toNat && b.tag == f.tag.toNat
    | none => false

/-- The order in which one frame's notices go out: the free order, then whatever it leaves out (R27, log 7). -/
def noticeSequence (order ms : List Ch) : List Ch :=
  (order.filter fun c => ms.contains c).eraseDups ++ ms.filter fun c => !order.contains c

/-- The channel unit takes a SAMPLE frame: all matched channels take their values before any notice goes out, and then
each channel's effects come whole, one channel after another (R26, R27; the turns: log 25). -/
def channelUnitTakes (f : Frame) (s : State) : State :=
  let ms := matchedChannels s f
  let s1 := ms.foldl (fun t c => setChannel c (takeFrom s f c).1 t) s
  (noticeSequence s.noticeOrder ms).foldl (fun t c => takenEffects c (takeFrom s f c).2 t) s1

/-! ## Changes of state without a sample (R28, R30, R38, R42) -/

/-- What a channel's change of state brings, `before` being the state it had: the reports of its limits, then that of
CH_FAULT, the occurrence of a change to STALE or LOST, its state notice (the order: log 25). A channel that was and is
ABSENT sends none (R28, R30, R31, R38). -/
def channelChanged (c : Ch) (before : ValueState) (s : State) : State :=
  let after := s.channels[c].state
  let s1 := reportFault c (reportLimits c s)
  if before = after ∨ (before.isAbsent && after.isAbsent) = true then s1
  else
    let s2 := match after with
      | .stale => channelOccur c 1 0 s1
      | .lost => channelOccur c 2 0 s1
      | _ => s1
    stateNotice c after s2

/-- A channel whose value is withdrawn: no held value, mark or baseline, its limits ARMED (R28, R30, R38). -/
def Channel.withdrawn (x : Channel) (v : ValueState) : Channel :=
  { x with state := v, value := none, mark := false, baseline := none, limit1 := .armed, limit2 := .armed }

/-- Change several channels, all of them before any notice goes out, the notices in ascending channel order
(log 8). -/
def changeChannels (cs : List Ch) (f : Ch → Channel → Channel) (s : State) : State :=
  let s1 := cs.foldl (fun t c => setChannel c (f c s.channels[c]) t) s
  cs.foldl (fun t c => channelChanged c s.channels[c].state t) s1

/-- CHANNEL_STALE is due: a bound LIVE channel, not channel 11, whose age has passed its stale time (R28). -/
def staleDue (s : State) (c : Ch) : Bool :=
  (binding s c).isSome && c != 11 && s.channels[c].state == .live && decide (staleTime s c < channelAge s c)

/-- CHANNEL_STALE (R28). -/
def execChannelStale (c : Ch) (s : State) : Host.Outcome State Fault Refusal :=
  .next (if staleDue s c then admitted s (changeChannels [c] (fun _ x => { x with state := .stale }) s) else s)

/-- CHANNEL_LOST is due: a bound STALE channel whose age has reached 4 × its stale time (R28). -/
def lostDue (s : State) (c : Ch) : Bool :=
  (binding s c).isSome && c != 11 && s.channels[c].state == .stale && decide (4 * staleTime s c ≤ channelAge s c)

/-- CHANNEL_LOST (R28, R38). -/
def execChannelLost (c : Ch) (s : State) : Host.Outcome State Fault Refusal :=
  .next (if lostDue s c then admitted s (changeChannels [c] (fun _ x => x.withdrawn .lost) s) else s)

/-- SETTLE_EXPIRY is due: a bound ABSENT settled channel whose age has reached 4 × its stale time (R28). -/
def settleDue (s : State) (c : Ch) : Bool :=
  (binding s c).isSome && c != 11 && s.channels[c].state == .absentSettled &&
    decide (4 * staleTime s c ≤ channelAge s c)

/-- A channel whose settle sample has expired: ABSENT unsettled, a counter's baseline discarded (R28). -/
def Channel.unsettled (x : Channel) : Channel := { x with state := .absentUnsettled, baseline := none }

/-- SETTLE_EXPIRY (R28). -/
def execSettleExpiry (c : Ch) (s : State) : Host.Outcome State Fault Refusal :=
  .next (if settleDue s c then setChannel c s.channels[c].unsettled s else s)

/-! ## The activation of CHANNEL (R39, R42, R182) -/

/-- A LIVE or STALE channel's state judged against its stale time; channel 11 is not aged (R42). -/
def judgedState (s : State) (c : Ch) : ValueState :=
  if c = 11 then s.channels[c].state
  else if channelAge s c ≤ staleTime s c then .live
  else if channelAge s c < 4 * staleTime s c then .stale
  else .lost

/-- A channel's binding and value after an activation, `old` being the copy before it; a settled state that has
expired against the new stale time ends at once (R42). -/
def reboundChannel (old : List Page) (s : State) (c : Ch) (x : Channel) : Channel :=
  if bindingIn old c ≠ binding s c then x.withdrawn .absentUnsettled
  else if x.state = .live ∨ x.state = .stale then
    match judgedState s c with
    | .lost => x.withdrawn .lost
    | v => { x with state := v }
  else if settleDue s c then x.unsettled
  else x

/-- A limit record is configured afresh, so that it enters REARMING where it is enabled (R39). -/
def limitChanged (old new : List Page) (c : Ch) (l : LimitNo) : Bool :=
  decide (limitControlIn old c l ≠ limitControlIn new c l) ||
  decide (limitThresholdIn old c l ≠ limitThresholdIn new c l) || decide (bindingIn old c ≠ bindingIn new c)

/-- A limit record's state after an activation (R38, R39). -/
def activatedLimit (old new : List Page) (c : Ch) (l : LimitNo) (st : LimitState) : LimitState :=
  if limitControlIn new c l = .off then .armed else if limitChanged old new c l then .rearming else st

/-- A channel after an activation (R38, R39, R42). Of a channel that is not rebound and is judged LOST, a limit that R39
makes REARMING stays so: the withdrawal of R38 is taken first, as R42 says for a rebound one (DESIGN CHOICE, log 40). -/
def activatedChannel (old : List Page) (s : State) (c : Ch) (x : Channel) : Channel :=
  let new := activePages s tChannel
  let y := reboundChannel old s c x
  (y.withLimit .l1 (activatedLimit old new c .l1 y.limit1)).withLimit .l2 (activatedLimit old new c .l2 y.limit2)

/-- A setpoint is absent after an activation that changes or removes its role's binding (R182). -/
def unbindSetpoint (old : List Page) (r : Role) (s : State) : State :=
  if roleBindingIn old r = roleBinding s r then s else remember r none s

/-- CHANNEL has been activated, `old` being the copy before: the setpoints of rebound pump roles go first, then every
channel changes (R42, R182; the order: log 25). -/
def channelActivated (old : List Page) (s : State) : State :=
  changeChannels (List.finRange 16) (activatedChannel old s)
    (unbindSetpoint old .pump2 (unbindSetpoint old .pump1 s))

/-! ## Entering BYPASS (R15) -/

/-- Both stroke rates become absent on entering BYPASS, a rate of 0 of a channel that was only settled included
(R89). -/
def ratesBypass (s : State) : State := setRate .two none (setRate .one none s)

/-- Entry to BYPASS from OBSERVE or GOVERN: the line interface, the activity, every channel with the stroke rates, the
governor (R15, R89, R191, log 9). -/
def enterBypass (s : State) : State :=
  let s1 := setMode .bypass s
  let s2 := s1.setLine { s1.line with forward := [], downstream := [], injections := [] }
  let s3 := changeChannels (List.finRange 16) (fun _ x => x.withdrawn .absentUnsettled) (recomputeCandidate s2)
  governorBypass (ratesBypass s3)

end Sys2Proof.Machine
end

