-- ==== Sys2Proof/Machine/Line.lean ====
section
/-! DEFINITION. The line interface's own steps: power-on reset, arriving frames, link timers, the two transmitters, the
completion response, the status period (chapter 1). -/

namespace Sys2Proof.Machine

/-! ## Power-on reset -/

/-- RESET is held from outside: the BYPASS output is asserted (R13, log 11). -/
def State.holdReset (s : State) : State := driveBypass (s.setLine { s.line with resetHeld := true })

/-- Power comes up: the BYPASS output is asserted until the reset that follows completes (R13, log 11). -/
def State.powerUp (s : State) : State := driveBypass (s.setLine { s.line with awaitingReset := true })

/-- POWER_ON_RESET (R13): the reset completes and RESET is released; every unit is as after power-on. The two queues of
the model's own stay. -/
def execPowerOnReset (s : State) : Host.Outcome State Fault Refusal :=
  .next { State.reset with pending := s.pending, noticeOrder := s.noticeOrder }

/-! ## Ports (R1, R2) -/

/-- A port's number in an event detail (R1). -/
def portNo : Port → Nat
  | .field => 0
  | .cab => 1

/-- A port's link. -/
def linkOf (s : State) : Port → PortLink
  | .field => s.line.fieldLink
  | .cab => s.line.cabLink

/-- Replace a port's link. -/
def setLink (p : Port) (x : PortLink) (s : State) : State :=
  match p with
  | .field => s.setLine { s.line with fieldLink := x }
  | .cab => s.setLine { s.line with cabLink := x }

/-- Report the condition of LINK_DOWN (R2). -/
def reportLinkDown (s : State) : State := report srcLinkDown (linkDownCond s) s

/-- A well-formed frame on a port: it is UP and its link timer restarts (R2). -/
def linkFrame (p : Port) (s : State) : State :=
  reportLinkDown (setLink p { up := true, everUp := true, timerStart := s.now } s)

/-- The link timeout, ms (R2). -/
def linkTimeout : Nat := 2000

/-- LINK_DOWN is due: the port is UP and its timer has run 2,000 ms (R2). -/
def linkDownDue (s : State) (p : Port) : Bool :=
  (linkOf s p).up && decide (linkTimeout ≤ s.now - (linkOf s p).timerStart)

/-- A port falls DOWN: LINK_DOWN occurs with the port (R2). -/
def fallDown (p : Port) (s : State) : State :=
  occurNat srcLinkDown (portNo p) (reportLinkDown (setLink p { linkOf s p with up := false } s))

/-- LINK_DOWN (R2). -/
def execLinkDown (p : Port) (s : State) : Host.Outcome State Fault Refusal :=
  .next (if linkDownDue s p then admitted s (fallDown p s) else s)

/-! ## Disposal (R10 to R12, R20) -/

/-- The places of the forward FIFO (R12). -/
def forwardSize : Nat := 16
/-- The places of the downstream FIFO (R12). -/
def downstreamSize : Nat := 8
/-- The places of the request FIFO (R20). -/
def requestSize : Nat := 4

/-- A frame is offered to the forward FIFO (R12). -/
def offerForward (f : Frame) (s : State) : State :=
  if s.line.forward.length < forwardSize then s.setLine { s.line with forward := s.line.forward ++ [f] }
  else occurNat srcForwardOverrun 0 s

/-- A frame is offered to the downstream FIFO (R12). -/
def offerDownstream (f : Frame) (s : State) : State :=
  if s.line.downstream.length < downstreamSize then
    s.setLine { s.line with downstream := s.line.downstream ++ [f] }
  else occurNat srcForwardOverrun 1 s

/-- A request is offered to the request FIFO (R20). -/
def offerRequest (f : Frame) (s : State) : State :=
  if s.line.requests.length < requestSize then s.setLine { s.line with requests := s.line.requests ++ [f] }
  else occurNat srcRequestOverrun f.tag.toNat s

/-- A well-formed frame on the FIELD port is disposed of; a SAMPLE goes to the channel unit before the forward FIFO
(R10; the order: log 25). -/
def fieldDispose (f : Frame) (s : State) : State :=
  match s.line.mode with
  | .bypass => s
  | _ => offerForward f (if f.kind = kindSample then channelUnitTakes f s else s)

/-- A well-formed frame on the CAB port is disposed of (R11). -/
def cabDispose (f : Frame) (s : State) : State :=
  if f.kind = kindRequest ∧ f.node = 0 then offerRequest f s
  else match s.line.mode with
    | .bypass => s
    | _ => offerDownstream f s

/-- A well-formed frame arrives: the link and its report, then the disposal (R2, R9; the order: log 25). -/
def wellFormedFrame (p : Port) (f : Frame) (s : State) : State :=
  match p with
  | .field => fieldDispose f (linkFrame .field s)
  | .cab => cabDispose f (linkFrame .cab s)

/-- The bytes of one frame, whole or short, arrive and are checked (R9). -/
def arrive (p : Port) (s : State) (bytes : List Byte) : State :=
  match parseFrame bytes with
  | some f => wellFormedFrame p f s
  | none => occurNat srcLineCheck (portNo p) s

/-- A run of bytes arrives: each frame it holds in turn, what is left at its end as a short frame (R1). -/
def arriveRun (p : Port) (bytes : List Byte) (s : State) : State :=
  (splitRun bytes.length bytes).foldl (arrive p) s

/-- FRAME_ARRIVAL (R9). -/
def execFrameArrival (p : Port) (bytes : List Byte) (s : State) : Host.Outcome State Fault Refusal :=
  .next (admittedJudged s (arriveRun p bytes (beginJudging s)))

/-- SHORT_FRAME (R1). -/
def execShortFrame (p : Port) (bytes : List Byte) (s : State) : Host.Outcome State Fault Refusal :=
  .next (admittedJudged s (arriveRun p bytes (beginJudging s)))

/-! ## The CAB transmitter (R18) -/

/-- What the CAB arbiter begins (R18). -/
inductive CabClaim where
  | response (f : Frame)
  | forwarded (f : Frame) (rest : List Frame)
  | record (f : Frame) (rest : List Frame)
  deriving DecidableEq, Repr

/-- The first claim on the CAB transmitter that applies (R18). -/
def cabClaim (s : State) : Option CabClaim :=
  match s.line.response, s.line.forward, s.line.records with
  | some f, _, _ => some (.response f)
  | none, f :: rest, [] => some (.forwarded f rest)
  | none, f :: rest, g :: rest' =>
    if s.line.forwardedRun < 8 then some (.forwarded f rest) else some (.record g rest')
  | none, [], g :: rest' => some (.record g rest')
  | none, [], [] => none

/-- A claim's frame is begun; where it leaves the record queue, the line interface admits records (R12, R18, R21 to R23). -/
def beginCab (c : CabClaim) (s : State) : State :=
  match c with
  | .response f => s.setLine { s.line with response := none, cabOut := some f }
  | .forwarded f rest =>
    s.setLine { s.line with
      forward := rest, forwardedRun := min 8 (s.line.forwardedRun + 1), cabOut := some f }
  | .record f rest =>
    admitRecords (waiting s) (s.setLine { s.line with records := rest, forwardedRun := 0, cabOut := some f })

/-- CAB_TRANSMIT_BEGIN (R18). -/
def execCabTransmitBegin (s : State) : Host.Outcome State Fault Refusal :=
  .next (match s.line.cabLink.up, cabClaim s with
    | true, some c => beginCab c s
    | _, _ => s)

/-! ## The FIELD transmitter (R19) -/

/-- The FIELD transmitter begins a frame. -/
def beginField (f : Frame) (s : State) : State := s.setLine { s.line with fieldOut := some f }

/-- The FIELD transmitter serves: the oldest waiting injection, else the head of the downstream FIFO as it is
governed; after a drop it serves again at once. `n` bounds the drops, each of which takes one of the 8 places
(R19, R179). -/
def serveField : Nat → State → State
  | 0, s => s
  | n + 1, s =>
    match s.line.injections, s.line.downstream with
    | i :: rest, _ =>
      let d := beginInjection i (s.setLine { s.line with injections := rest })
      beginField d.1 d.2
    | [], f :: rest =>
      match govern f (s.setLine { s.line with downstream := rest }) with
      | (some g, s1) => beginField g s1
      | (none, s1) => serveField n s1
    | [], [] => s

/-- FIELD_TRANSMIT_BEGIN (R19). -/
def execFieldTransmitBegin (s : State) : Host.Outcome State Fault Refusal :=
  .next (if s.line.fieldLink.up ∧ s.line.mode ≠ .bypass then
    admitted s (serveField (s.line.downstream.length + 1) s) else s)

/-! ## The completion response and the status period (R21, R24) -/

/-- COMPLETION_RESPONSE_PLACED (R21). -/
def execCompletionResponsePlaced (s : State) : Host.Outcome State Fault Refusal :=
  .next (match s.line.response, s.line.completion with
    | none, some f => s.setLine { s.line with response := some f, completion := none }
    | _, _ => s)

/-- STATUS_PERIOD is due: the timer, which runs while SETTINGS is active, has reached the status period (R24). -/
def statusPeriodDue (s : State) : Bool :=
  match settings s with
  | some g => decide (g.statusPeriod * 1000 ≤ s.now - s.line.statusTimerStart)
  | none => false

/-- STATUS_PERIOD (R24). -/
def execStatusPeriod (s : State) : Host.Outcome State Fault Refusal :=
  .next (if statusPeriodDue s then
    admitted s (statusDue .period (s.setLine { s.line with statusTimerStart := s.now })) else s)

end Sys2Proof.Machine
end

