-- ==== Sys2Proof/Machine/Tables.lean ====
section
/-! DEFINITION. The table store (chapter 11): LOAD, ACTIVATE with the checks and effects of each table, READ_TABLE. -/

namespace Sys2Proof.Machine

/-! ## Table numbers and pages (R193) -/

/-- The table a number names (R193). -/
def tableNo (n : Nat) : Option TableNo := if h : n < 9 then some ⟨n, h⟩ else none

/-- The page count of a table (R193). -/
def Table.pageCount (t : Table) : Nat := t.pending.length

/-- Replace a table. -/
def setTable (t : TableNo) (x : Table) (s : State) : State := s.setTables (s.tables.set t x)

/-! ## LOAD (R194) -/

/-- A page of the given words, zero after them (R194). -/
def pageOf (ws : List Word) : Page := Vector.ofFn fun i => ws.getD i 0

/-- A table after a LOAD of a page (R194). -/
def Table.load (t : Table) (p : Nat) (ws : List Word) : Table :=
  { t with pending := t.pending.set p (pageOf ws), mask := t.mask.set p true }

/-- Carry out a LOAD request (R194). -/
def loadBody (f : Frame) (s : State) : State × Option Reply :=
  match tableNo (f.val 0) with
  | none => (s, some (Reply.echo .badTable))
  | some t =>
    if s.tables[t].pageCount ≤ f.val 1 then (s, some (Reply.echo .badPage))
    else if t = tTariff ∧ s.bill.deferred then (s, some (Reply.echo .busy))
    else (setTable t (s.tables[t].load (f.val 1) (f.values.drop 2)) s, some (Reply.echo .ok))

/-- LOAD (R194). -/
def execLoad (s : State) : Host.Outcome State Fault Refusal :=
  .next (takeRequest (· == 2) (fun n => 2 ≤ n && n ≤ 14) false loadBody s)

/-! ## Checks of a pending copy (R195) -/

/-- A failed check: BAD_VALUE or BAD_TABLE, and the page named (R195). -/
abbrev CheckFault := Code × Nat

/-- The first page that fails, answered BAD_VALUE. -/
def fieldPass (count : Nat) (ok : Nat → Bool) : Option CheckFault :=
  ((List.range count).find? fun p => !ok p).map fun p => (Code.badValue, p)

/-- A number in a range. -/
def within (lo n hi : Nat) : Bool := decide (lo ≤ n) && decide (n ≤ hi)

/-! ### CHANNEL (R40, R41) -/

/-- A bound channel's own words fit its kind (R40). -/
def channelPageFits (pages : List Page) (c : Ch) : Bool :=
  let w := pageWord pages c
  let ctl := w 1 % 256
  decide (w 0 / 256 ≤ 62) && decide (w 0 % 256 ≤ 14) && (c == 11 || within 100 (w 2) 10000) &&
  (match channelKind c with
    | .counter => within 1 (w 3) 32767
    | .analog => decide (w 3 < w 4)
    | _ => true) &&
  ((limitBase c).isNone || (decide (ctl % 4 ≤ 2) && decide (ctl / 4 ≤ 2)))

/-- Page p of CHANNEL passes its check: an unbound channel's page always does; page 16 holds role nodes up to 62
(R40, R41). -/
def channelPageOk (pages : List Page) (p : Nat) : Bool :=
  if h : p < 16 then (bindingIn pages ⟨p, h⟩).isNone || channelPageFits pages ⟨p, h⟩
  else (List.range 6).all fun i => decide (pageWord pages 16 i / 256 ≤ 62)

/-- A channel whose binding a lower-numbered channel has too: the lowest such (R40, log 19). -/
def channelTwice (pages : List Page) : Option Nat :=
  ((List.finRange 16).find? fun c => (bindingIn pages c).isSome &&
    (List.finRange 16).any fun d => decide (d < c) && bindingIn pages d == bindingIn pages c).map (·.val)

/-- Two bound roles have the same node and tag (R40). -/
def roleTwice (pages : List Page) : Bool :=
  allRoles.any fun r => (roleBindingIn pages r).isSome &&
    allRoles.any fun q => decide (roleIndex q < roleIndex r) && roleBindingIn pages q == roleBindingIn pages r

/-- The checks of CHANNEL in their order (R40). -/
def checkChannel (pages : List Page) : Option CheckFault :=
  (fieldPass 17 (channelPageOk pages)).or
    (((channelTwice pages).map fun p => (Code.badTable, p)).or
      (if roleTwice pages then some (Code.badTable, 16) else none))

/-! ### ROUTE (R171) -/

/-- A route byte names a class or NONE (R171). -/
def routeByteOk (b : Nat) : Bool := decide (b < 8) || b == 255

/-- Page p of ROUTE passes its check (R171). -/
def routePageOk (pages : List Page) (p : Nat) : Bool :=
  let routes := fun (lo n : Nat) => (List.range n).all fun i => routeByteOk (routeByteIn pages (lo + i))
  match p with
  | 0 => routes 0 24
  | 1 => routes 24 24
  | 2 => routes 48 16 && (List.range 8).all fun k => decide (actionByteIn pages k ≤ 31)
  | _ => (List.range 8).all fun k => decide (levelIn pages k ≤ 2) && decide (pageWord pages 3 k % 256 ≤ 1)

/-! ### PROFILE (R112) -/

/-- A section's fields are in range (R112). -/
def sectionOk (pages : List Page) (k : Nat) : Bool := within 1 (sectionIn pages k).bottom 2000000

/-- The field pass of PROFILE: the header, then the sections in use (R112). -/
def profileFields (pages : List Page) : Option CheckFault :=
  if within 1 (bitAreaIn pages) 1000000 && decide (surfaceVolumeIn pages ≤ 10000000) &&
      within 1 (sectionCountIn pages) 12 then
    ((List.range (sectionCountIn pages)).find? fun k => !sectionOk pages k).map fun k => (Code.badValue, 1 + k / 4)
  else some (Code.badValue, 0)

/-- The order pass of PROFILE (R112). -/
def profileOrder (pages : List Page) : Option CheckFault :=
  ((List.range (sectionCountIn pages)).find? fun k => decide (0 < k) &&
    decide ((sectionIn pages k).bottom ≤ (sectionIn pages (k - 1)).bottom)).map fun k => (Code.badTable, 1 + k / 4)

/-! ### MUDPROG (R92, R93) -/

/-- A used segment's fields are in range (R92). -/
def segmentFits (g : Segment) : Bool :=
  within 1 g.endDepth 2000000 && (decide (g.link ≤ 15) || g.link == linkEnd) && decide (g.maxRate ≤ 200) &&
  decide (g.ceiling ≤ 40000) && decide (g.holdRate ≤ g.maxRate) && within 1 g.gainThreshold 60000 &&
  within 1 g.lossThreshold 60000 && decide (g.minReturn ≤ 1000) && within 800 g.densityMin 2400 &&
  within g.densityMin g.densityMax 2400

/-- Page p of MUDPROG passes the field pass (R92, R93). -/
def mudPageOk (pages : List Page) (p : Nat) : Bool :=
  match p with
  | 0 => decide (entrySegmentIn pages ≤ 15)
  | id + 1 =>
    let g := segmentIn pages id
    g.used == 0 || (g.used == 1 && segmentFits g)

/-- The first link of the chain from a segment that fails, as the page of the segment that holds it. `n` bounds the
walk (R93). -/
def chainFault (pages : List Page) : Nat → Nat → Option Nat
  | 0, _ => none
  | n + 1, id =>
    let g := segmentIn pages id
    let t := segmentIn pages g.link
    if g.link = linkEnd then none
    else if t.used ≠ 1 ∨ t.endDepth ≤ g.endDepth then some (id + 1)
    else chainFault pages n g.link

/-- The chain pass of MUDPROG (R93). -/
def mudChain (pages : List Page) : Option CheckFault :=
  if (segmentIn pages (entrySegmentIn pages)).used ≠ 1 then some (Code.badTable, 0)
  else (chainFault pages 16 (entrySegmentIn pages)).map fun p => (Code.badTable, p)

/-! ### RODCLASS, CLASSIFY, FATIGUE (R64, R129, R83) -/

/-- A rod class's fields are in range (R64). -/
def rodClassOk (k : RodClass) : Bool :=
  decide (k.kind ≤ 4) && within 10 k.weight 2000 && decide (k.steel ≤ 20000) && decide (k.torqueMin ≤ 40000) &&
  within k.torqueMin k.torqueMax 40000 && within 1 k.threshold 1000000

/-- The boundaries do not decrease (R129). -/
def checkClassify (pages : List Page) : Option CheckFault :=
  if (List.range 6).all fun i => decide (pageWord pages 0 i ≤ pageWord pages 0 (i + 1)) then none
  else some (Code.badTable, 0)

/-- The band width is in range (R83). -/
def checkFatigue (pages : List Page) : Option CheckFault :=
  if within 1 (bandWidthIn pages) 40000 then none else some (Code.badValue, 0)

/-! ### TARIFF (R153) -/

/-- The largest rate or charge (R153). -/
def maxRate : Nat := 100000000

/-- The 32-bit field at word i of TARIFF read page after page is at most the largest rate. -/
def rateOk (pages : List Page) (i : Nat) : Bool := decide (linearWord32 pages i ≤ maxRate)

/-- Page p of TARIFF passes the field pass (R153). -/
def tariffPageOk (pages : List Page) (p : Nat) : Bool :=
  match p with
  | 0 => (List.range 6).all fun j => rateOk pages (2 * j)
  | 1 => (List.range 2).all (fun j => rateOk pages (12 + 2 * j)) &&
      (List.range 3).all (fun k => within 1 (bandBoundaryIn pages k) 2000000) &&
      (List.range 2).all (fun k => decide (bandFactorIn pages k ≤ 10000))
  | 2 => (List.range 2).all (fun k => decide (bandFactorIn pages (2 + k) ≤ 10000)) &&
      (List.range 5).all (fun j => rateOk pages (26 + 2 * j))
  | 3 => (List.range 6).all fun j => rateOk pages (36 + 2 * j)
  | _ => rateOk pages 48

/-- The order pass of TARIFF (R153). -/
def tariffOrder (pages : List Page) : Option CheckFault :=
  if bandBoundaryIn pages 0 < bandBoundaryIn pages 1 ∧ bandBoundaryIn pages 1 < bandBoundaryIn pages 2 then none
  else some (Code.badTable, 1)

/-! ### SETTINGS (R24, R43, R88, R129, R177, R196) -/

/-- Page p of SETTINGS holds its fields in range (R196). -/
def settingsPageOk (g : Settings) (p : Nat) : Bool :=
  match p with
  | 0 =>
    decide (-5000 ≤ g.topDriveOffset) && decide (g.topDriveOffset ≤ 5000) && within 1 g.rotationThreshold 400 &&
    within 1 g.wobThreshold 10000 && within 1 g.maxAdvance 5000 && decide (g.onBottomBand ≤ 5000) &&
    within 1 g.pumpOnThreshold 400 && within 10 g.tripWindow 900 && decide (g.dwellTime ≤ 30) &&
    decide (g.blockWeight ≤ 655350) && within 1 g.overpullLimit 655350
  | _ =>
    within 1000 g.displacement1 65535 && within 500 g.efficiency1 1000 && within 1000 g.displacement2 65535 &&
    within 500 g.efficiency2 1000 && decide (g.pressureHysteresis ≤ 10000) && within 100 g.intervalStep 5000 &&
    within 10 g.minClassifyLength 1000 && decide (g.handlerClearance ≤ 40000) && decide (g.lowerMargin ≤ 10000) &&
    within 50 g.slipsReleasePercent 100 && within 1 g.statusPeriod 60

/-- The maximum advance is not above the interval step (R43, R196). -/
def settingsStep (g : Settings) : Option CheckFault :=
  if g.intervalStep < g.maxAdvance then some (Code.badValue, 0) else none

/-- What the owner of a table finds wrong with a copy, none when every check passes (R195). -/
def checkTable (t : TableNo) (pages : List Page) : Option CheckFault :=
  match t.val with
  | 0 => checkChannel pages
  | 1 => fieldPass 4 (routePageOk pages)
  | 2 => (profileFields pages).or (profileOrder pages)
  | 3 => (fieldPass 17 (mudPageOk pages)).or (mudChain pages)
  | 4 => fieldPass 16 fun p => rodClassOk (rodClassIn pages p)
  | 5 => checkClassify pages
  | 6 => checkFatigue pages
  | 7 => (fieldPass 5 (tariffPageOk pages)).or (tariffOrder pages)
  | _ => (fieldPass 2 (settingsPageOk (readSettings pages))).or (settingsStep (readSettings pages))

/-! ## The effects of an activation (R195) -/

/-- A class's state under the routing now active (R176). -/
def recomputedClass (s : State) (k : AlarmClass) : ClassState :=
  if routedTrue s k then
    if s.event.classes[k] = .ackWait ∧ latched s k = true then .ackWait else .active
  else .inactive

/-- Step 3 of a ROUTE activation for one class, its state before being `before` (R176). -/
def classReroute (before : ClassState) (k : AlarmClass) (now : ClassState) (s : State) : State :=
  if before = now then s
  else
    let s1 := statusDue .cls s
    if now = .active then activationNoticeWith raise k s1 else s1

/-- ROUTE has been activated; the classes are taken in ascending order, each with STATUS due before its activation notice
(R176; the order: log 28). -/
def routeActivated (s : State) : State :=
  let classes := Vector.ofFn fun k => recomputedClass s k
  (List.finRange 8).foldl (fun t k => classReroute s.event.classes[k] k classes[k] t)
    (s.setEvent { s.event with classes := classes })

/-- SETTINGS has been activated: the depth unit with the candidate and the dwell, then flow in and what a change of
pumping brings, then the status period timer (R24, R43, R60, R88; the order: log 26). -/
def settingsActivated (s : State) : State :=
  let s1 := pumpingChanged (recomputeFlow (depthSettings s))
  s1.setLine { s1.line with statusTimerStart := s1.now }

/-- Each owner applies a newly active copy; `old` is the copy before it (R195). -/
def applyTable (t : TableNo) (old : List Page) (s : State) : State :=
  match t.val with
  | 0 => channelActivated old s
  | 1 => routeActivated s
  | 3 => refindSegment s
  | 4 => rodclassActivated s
  | 8 => settingsActivated s
  | _ => s

/-- The lowest page whose mask bit is clear (R195). -/
def missingPage (t : Table) : Option Nat := (List.range t.pageCount).find? fun p => !(t.mask.getD p false)

/-- Why an ACTIVATE of a table is refused, none when every check passes (R195). -/
def activateFault (t : TableNo) (s : State) : Option Reply :=
  if t = tTariff ∧ s.bill.deferred then some (Reply.echo .deferred)
  else match (if isActive s t then none else missingPage s.tables[t]) with
    | some p => some (Reply.values .incomplete [w16 p])
    | none => (checkTable t s.tables[t].pending).map fun x => Reply.values x.1 [w16 x.2]

/-- Carry out an ACTIVATE request (R195). -/
def activateBody (f : Frame) (s : State) : State × Option Reply :=
  match tableNo (f.val 0) with
  | none => (s, some (Reply.values .badTable [w16 (f.val 0)]))
  | some t =>
    match activateFault t s with
    | some r => (s, some r)
    | none =>
      if t = tTariff ∧ s.bill.job = .opened then
        (s.setBill { s.bill with deferred := true }, some (Reply.echo .deferred))
      else (applyTable t (activePages s t) (activateTable t s), some (Reply.echo .ok))

/-- ACTIVATE (R195). -/
def execActivate (s : State) : Host.Outcome State Fault Refusal :=
  .next (admitted s (takeRequest (· == 3) (· == 1) false activateBody s))

/-! ## READ_TABLE (R197) -/

/-- The twelve words of a page, zeros where the copy has none. -/
def pageWords (pages : List Page) (p : Nat) : List Word :=
  match pages[p]? with
  | some page => page.toList
  | none => List.replicate 12 0

/-- The answer to an accepted READ_TABLE (R197). -/
def readReply (t : TableNo) (page copy : Nat) (s : State) : Reply :=
  let x := s.tables[t]
  let head := [wBytes t page, wBytes copy (bit (x.mask.getD page false))]
  if copy = 1 then Reply.values .ok (head ++ pageWords x.pending page)
  else match x.active with
    | some pages => Reply.values .ok (head ++ pageWords pages page)
    | none => Reply.values .notReady (head ++ List.replicate 12 0)

/-- Carry out a READ_TABLE request (R197). -/
def readTableBody (f : Frame) (s : State) : State × Option Reply :=
  match tableNo (f.val 0) with
  | none => (s, some (Reply.echo .badTable))
  | some t =>
    if s.tables[t].pageCount ≤ f.val 1 then (s, some (Reply.echo .badPage))
    else if 1 < f.val 2 then (s, some (Reply.echo .badValue))
    else (s, some (readReply t (f.val 1) (f.val 2) s))

/-- READ_TABLE (R197). -/
def execReadTable (s : State) : Host.Outcome State Fault Refusal :=
  .next (takeRequest (· == 4) (· == 3) false readTableBody s)

end Sys2Proof.Machine
end

