-- ==== Sys2Proof/Machine/Jobs.lean ====
section
/-! DEFINITION. The steps of a job: JOB_START, MARK, SHIFT_CLOSE, JOB_END and its completion, the second step and the dwell
expiry (R59, R62, R138, R150 to R152, R163). -/

namespace Sys2Proof.Machine

/-! ## JOB_START (R150) -/

/-- The number of the first offending value of a JOB_START, none when all are in range. Of a field in two values it is
the first one's (R150; DESIGN CHOICE, log 32). -/
def jobStartFault (f : Frame) : Option Nat :=
  if f.val 0 = 0 then some 0
  else if 2000000 < f.val32 1 then some 1
  else if f.val 3 = 0 then some 3
  else if f.val32 4 = 0 then some 4
  else none

/-- Step 3 of a JOB_START: the job and its first ticket (R150). -/
def openJob (number hole ticket : Nat) (s : State) : State :=
  let s1 := clearLines s
  s1.setBill { s1.bill with
    job := .opened
    jobNumber := number
    startHole := hole
    ticketNumber := ticket
    ticketOpen := true
    openTime := 0
    openHole := hole
    lastInterval := none }

/-- Step 4 of a JOB_START: the counter, the class and the first interval (R150). -/
def openFirstInterval (number hole : Nat) (s : State) : State :=
  openInterval none hole (s.setInterval { s.interval with counter := number, currentClass := 0 })

/-- Carry out a JOB_START request. Where several refusals apply, JOB_OPEN comes before BAD_VALUE and that before NOT_READY
(R150; the order: DESIGN CHOICE, log 37). -/
def jobStartBody (f : Frame) (s : State) : State × Option Reply :=
  if s.bill.job = .opened then (s, some (Reply.echo .jobOpen))
  else match jobStartFault f with
    | some i => (s, some (Reply.values .badValue [w16 i]))
    | none =>
      if isActive s tTariff = false then (s, some (Reply.echo .notReady))
      else
        let hole := f.val32 1
        let s1 := openJob (f.val 0) hole (f.val 3) (depthJobStart hole s)
        (recomputeCandidate (refindSegment (openFirstInterval (f.val32 4) hole s1)), some (Reply.echo .ok))

/-- JOB_START (R150). -/
def execJobStart (s : State) : Host.Outcome State Fault Refusal :=
  .next (admitted s (takeRequest (· == 10) (· == 6) false jobStartBody s))

/-! ## MARK (R138) -/

/-- Write a note code into the open interval (R138). -/
def writeNote (n : Nat) (s : State) : State :=
  s.setInterval { s.interval with current := s.interval.current.map fun o => { o with note := n } }

/-- The number of the open interval, 0 when none is open. -/
def openNumber (s : State) : Nat := (s.interval.current.map (·.number)).getD 0

/-- Carry out a MARK request (R138). With no job open and a note code above 255 the rule leaves the answer open: NO_JOB
comes before BAD_VALUE (DESIGN CHOICE, log 39). -/
def markBody (f : Frame) (s : State) : State × Option Reply :=
  if s.bill.job = .noJob then (s, some (Reply.echo .noJob))
  else if 255 < f.val 0 then (s, some (Reply.echo .badValue))
  else
    let s1 := writeNote (f.val 0) s
    if 0 < openLength s then (closeInterval .mark s.depth.hole s1, some (Reply.values .ok (w32 (openNumber s))))
    else (s1, some (Reply.values .ok (w32 0)))

/-- MARK (R138). -/
def execMark (s : State) : Host.Outcome State Fault Refusal :=
  .next (admitted s (takeRequest (· == 13) (· == 1) false markBody s))

/-! ## SHIFT_CLOSE (R163) -/

/-- The ticket number that follows one: 1 follows 65,535 (R163). -/
def nextTicketNumber (n : Nat) : Nat := if n = 65535 then 1 else n + 1

/-- Step 4 of a SHIFT_CLOSE: the next ticket, whose lines the snapshot has cleared (R155, R163). -/
def nextTicket (s : State) : State :=
  s.setBill { s.bill with
    ticketNumber := nextTicketNumber s.bill.ticketNumber
    openTime := jobTime s
    openHole := s.depth.hole
    lastInterval := none }

/-- Carry out a SHIFT_CLOSE request. At the end of the step the ticket stands in the admission order ahead of the STRATA,
EVENT and STATUS records whose wait has begun in it (R23, R162, R163; DESIGN CHOICE, log 34). -/
def shiftCloseBody (_f : Frame) (s : State) : State × Option Reply :=
  if s.bill.job = .noJob then (s, some (Reply.echo .noJob))
  else if s.bill.outBuffer.isSome then (s, some (Reply.echo .busy))
  else
    let s1 := applyDeferred (snapshot false (shiftCut s))
    (nextTicket s1, some (Reply.values .ok [w16 s.bill.ticketNumber]))

/-- SHIFT_CLOSE (R163). -/
def execShiftClose (s : State) : Host.Outcome State Fault Refusal :=
  .next (admitted s (takeRequest (· == 12) (· == 0) false shiftCloseBody s))

/-! ## JOB_END and its completion (R151, R152) -/

/-- Why a JOB_END is refused, none when it is accepted (R151). -/
def jobEndFault (force : Nat) (s : State) : Option Code :=
  if s.bill.job = .noJob then some .noJob
  else if 1 < force then some .badValue
  else if s.bill.outBuffer.isSome then some .busy
  else if s.rod.string ≠ [] ∧ force = 0 then some .stringInHole
  else none

/-- No ticket is open any more; the ending watch takes what the completion response will report (R151, R152). -/
def beginEnding (finalHole : Nat) (s : State) : State :=
  s.setBill { s.bill with
    ticketOpen := false
    ending := some { ticket := s.bill.ticketNumber, finalHole := finalHole, lagDone := false } }

/-- The JOB_END flush, from which on the lag unit watches for its completion (R125, R126). -/
def jobEndFlush (s : State) : State :=
  let s1 := lagFlush s
  flushCompletion (s1.setLag { s1.lag with flushWatch := true })

/-- Carry out an accepted JOB_END. At the end of the step the FINAL ticket stands in the admission order ahead of the
STRATA, EVENT and STATUS records whose wait has begun in it (R23, R151, R162; DESIGN CHOICE, log 34). -/
def endJob (s : State) : State :=
  let s1 := endCut (s.setBill { s.bill with job := .ending })
  let s2 := applyDeferred (snapshot true s1)
  jobEndFlush (beginEnding s.depth.hole s2)

/-- Carry out a JOB_END request; an accepted one is answered at its completion (R151). -/
def jobEndBody (f : Frame) (s : State) : State × Option Reply :=
  match jobEndFault (f.val 0) s with
  | some c => (s, some (Reply.echo c))
  | none => (endJob s, none)

/-- JOB_END (R151). -/
def execJobEnd (s : State) : Host.Outcome State Fault Refusal :=
  .next (admitted s (takeRequest (· == 11) (· == 1) false jobEndBody s))

/-- Both things that the ending watch waits for have come (R152). -/
def endingDone (s : State) : Option EndingWatch :=
  if s.bill.job = .ending ∧ s.bill.outBuffer = none then s.bill.ending.filter (·.lagDone) else none

/-- The completion response of a JOB_END (R152). -/
def completionFrame (w : EndingWatch) : Frame :=
  responseFrame 11 [] (Reply.values .ok (w16 w.ticket :: w32 w.finalHole))

/-- A JOB_END completes: the job and its clock, the interval unit, the pit balance, the lines, the response (R152; the
order: log 27). -/
def completeJobEnd (w : EndingWatch) (s : State) : State :=
  let s1 := s.setBill { s.bill with job := .noJob }
  let s2 := s1.setDepth { s1.depth with clockRuns := false }
  let s3 := clearLines (pitJobEnd (intervalClear s2))
  let s4 := s3.setBill { s3.bill with jobNumber := 0, ticketNumber := 0, ending := none }
  s4.setLine { s4.line with completion := some (completionFrame w) }

/-- JOB_END_COMPLETION (R152). -/
def execJobEndCompletion (s : State) : Host.Outcome State Fault Refusal :=
  .next (match endingDone s with
    | some w => admitted s (completeJobEnd w s)
    | none => s)

/-! ## The second step and the dwell expiry (R59, R62, R63) -/

/-- SECOND_STEP is due: the second timer has run 1,000 ms (R62). -/
def secondDue (s : State) : Bool := decide (1000 ≤ s.now - s.depth.secondStart)

/-- The running job clock steps and hands the billing unit one second (R62, R63); a clock that stays at its largest
value brings no accrual (R157). -/
def clockStep (s : State) : State :=
  if s.depth.clockRuns ∧ s.depth.jobClock < max32 then
    billSecond s.depth.activity (s.setDepth { s.depth with jobClock := s.depth.jobClock + 1 })
  else s

/-- The second timer steps (R58, R62, R63). -/
def secondStep (s : State) : State :=
  recomputeCandidate (clockStep (s.setDepth { s.depth with secondStart := s.depth.secondStart + 1000 }))

/-- SECOND_STEP (R62). -/
def execSecondStep (s : State) : Host.Outcome State Fault Refusal :=
  .next (if secondDue s then admitted s (secondStep s) else s)

/-- DWELL_EXPIRY (R59). -/
def execDwellExpiry (s : State) : Host.Outcome State Fault Refusal := .next (admitted s (expireDwell s))

end Sys2Proof.Machine
end

