-- ==== Sys2Proof/Machine/Requests.lean ====
section
/-! DEFINITION. The request steps that no other file holds: MODE, BASELINE, ADDITION, DOWNTIME, ACK_CLASS, FLUSH_LAG,
STATUS, UNKNOWN_REQUEST (R14, R20, R24, R61, R108, R109, R124, R173). -/

namespace Sys2Proof.Machine

/-! ## MODE (R14) -/

/-- The mode a value asks for (R14, R198). -/
def modeAsked : Nat → Option LineMode
  | 0 => some .bypass
  | 1 => some .observe
  | 2 => some .govern
  | _ => none

/-- The requirements of GOVERN in their order; OBSERVE has the first two (R14). -/
def requirements (m : LineMode) (s : State) : List Bool :=
  match m with
  | .bypass => []
  | .observe => [isActive s tChannel, isActive s tSettings]
  | .govern => [isActive s tChannel, isActive s tSettings, isActive s tRoute, isActive s tMudprog,
      isActive s tRodclass, isActive s tProfile, s.rod.valid]

/-- The number of the first requirement unmet, counted from 1 (R14). -/
def unmet (m : LineMode) (s : State) : Option Nat := ((requirements m s).idxOf? false).map (· + 1)

/-- The line mode becomes another, with the effects of R15 or R16 (R14). -/
def changeMode (m : LineMode) (s : State) : State :=
  match m with
  | .bypass => enterBypass s
  | _ => if s.line.mode = .bypass then leaveBypass m s else changeInLine m s

/-- Carry out a MODE request by its rules in their order (R14). -/
def modeBody (f : Frame) (s : State) : State × Option Reply :=
  match modeAsked (f.val 0) with
  | none => (s, some (Reply.echo .badValue))
  | some m =>
    if s.bill.job = .ending ∧ m ≠ .bypass then (s, some (Reply.echo .busy))
    else if m = s.line.mode then (s, some (Reply.echo .ok))
    else match unmet m s with
      | some i => (s, some (Reply.values .notReady [w16 i]))
      | none => (changeMode m s, some (Reply.echo .ok))

/-- MODE (R14). -/
def execMode (s : State) : Host.Outcome State Fault Refusal :=
  .next (admitted s (takeRequest (· == 1) (· == 1) true modeBody s))

/-! ## BASELINE, ADDITION (R108, R109) -/

/-- Carry out a BASELINE request (R108). -/
def baselineBody (_f : Frame) (s : State) : State × Option Reply :=
  match s.line.mode, held s 4 with
  | .bypass, _ => (s, some (Reply.echo .notReady))
  | _, none => (s, some (Reply.echo .notReady))
  | _, some v => (pitBaseline v s, some (Reply.echo .ok))

/-- BASELINE (R108). -/
def execBaseline (s : State) : Host.Outcome State Fault Refusal :=
  .next (admitted s (takeRequest (· == 14) (· == 0) false baselineBody s))

/-- Carry out an ADDITION request (R109). Which answer holds where two of the rule's apply (out of range, or 0, in BYPASS
or while SUSPENDED) is open: BAD_VALUE comes first, then NOT_READY, and 0 is OK only where neither is (DESIGN CHOICE,
log 38). -/
def additionBody (f : Frame) (s : State) : State × Option Reply :=
  let x := f.valSigned32 0
  if x < -1000000 ∨ 1000000 < x then (s, some (Reply.echo .badValue))
  else if s.line.mode = .bypass ∨ s.circ.watching = false then (s, some (Reply.echo .notReady))
  else if x = 0 then (s, some (Reply.echo .ok))
  else (pitAdjustment (x * 1000000) s, some (Reply.echo .ok))

/-- ADDITION (R109). -/
def execAddition (s : State) : Host.Outcome State Fault Refusal :=
  .next (admitted s (takeRequest (· == 15) (· == 2) false additionBody s))

/-! ## DOWNTIME (R61) -/

/-- The declaration a value gives (R61, R198). -/
def downtimeAsked : Nat → Option Downtime
  | 0 => some .none
  | 1 => some .standby
  | 2 => some .repair
  | _ => Option.none

/-- Carry out a DOWNTIME request (R61). -/
def downtimeBody (f : Frame) (s : State) : State × Option Reply :=
  match downtimeAsked (f.val 0) with
  | none => (s, some (Reply.echo .badValue))
  | some d => (recomputeCandidate (s.setDepth { s.depth with downtime := d }), some (Reply.echo .ok))

/-- DOWNTIME (R61). -/
def execDowntime (s : State) : Host.Outcome State Fault Refusal :=
  .next (admitted s (takeRequest (· == 16) (· == 1) false downtimeBody s))

/-! ## ACK_CLASS (R173) -/

/-- The class a number names (R172). -/
def classNo (n : Nat) : Option AlarmClass := if h : n < 8 then some ⟨n, h⟩ else none

/-- The state of a class after an acknowledgement, with the code of the answer (R173). -/
def acknowledged (c : ClassState) (isLatched stillTrue : Bool) : ClassState × Code :=
  match c, stillTrue with
  | .inactive, _ => (.inactive, .ok)
  | _, false => (.inactive, .ok)
  | .active, true => (if isLatched then .ackWait else .active, .stillActive)
  | .ackWait, true => (.ackWait, .stillActive)

/-- A class takes a state; a change makes STATUS due (R174). -/
def changeClass (k : AlarmClass) (c : ClassState) (s : State) : State :=
  if c = s.event.classes[k] then s else statusDue .cls (setClass k c s)

/-- Carry out an ACK_CLASS request; value 1 is the state that the acknowledgement gives (R173; a RECORD_QUEUE_FULL that
follows in the step: DESIGN CHOICE, log 8). -/
def ackClassBody (f : Frame) (s : State) : State × Option Reply :=
  match classNo (f.val 0) with
  | none => (s, some (Reply.echo .badValue))
  | some k =>
    let a := acknowledged s.event.classes[k] (latched s k) (routedTrue s k)
    (changeClass k a.1 s, some (Reply.values a.2 [w16 a.1.code]))

/-- ACK_CLASS (R173). -/
def execAckClass (s : State) : Host.Outcome State Fault Refusal :=
  .next (admitted s (takeRequest (· == 17) (· == 1) false ackClassBody s))

/-! ## FLUSH_LAG, STATUS, UNKNOWN_REQUEST (R124, R24, R20) -/

/-- The number of WAITING entries. -/
def waitingCount (s : State) : Nat := s.lag.queue.countP LagEntry.isWaiting

/-- Carry out a FLUSH_LAG request (R124). -/
def flushLagBody (_f : Frame) (s : State) : State × Option Reply :=
  (lagFlush s, some (Reply.values .ok [w16 (waitingCount s)]))

/-- FLUSH_LAG (R124). -/
def execFlushLag (s : State) : Host.Outcome State Fault Refusal :=
  .next (admitted s (takeRequest (· == 18) (· == 0) false flushLagBody s))

/-- Carry out a STATUS request (R24). -/
def statusBody (_f : Frame) (s : State) : State × Option Reply :=
  (statusDue .request s, some (Reply.echo .ok))

/-- STATUS (R24). -/
def execStatus (s : State) : Host.Outcome State Fault Refusal :=
  .next (admitted s (takeRequest (· == 19) (· == 0) true statusBody s))

/-- A TAG that names no request kind (R198). -/
def unknownKind (n : Nat) : Bool := n == 0 || decide (19 < n)

/-- UNKNOWN_REQUEST (R20): no COUNT fits a kind the part does not know, so the answer is BAD_REQUEST. -/
def execUnknownRequest (s : State) : Host.Outcome State Fault Refusal :=
  .next (takeRequest unknownKind (fun _ => false) false (fun _ t => (t, some (Reply.echo .badRequest))) s)

end Sys2Proof.Machine
end

