-- ==== Sys2Proof/Machine/Own.lean ====
section
/-! DEFINITION. What the part does by itself: the step of its own that is due, and the passing of a millisecond where none
is (log 2). -/

namespace Sys2Proof.Machine

/-- The step that carries a request kind out, by its TAG (R198). -/
def requestStep (tag : Nat) : Instr :=
  match tag with
  | 1 => .mode
  | 2 => .load
  | 3 => .activate
  | 4 => .readTable
  | 5 => .rackAdd
  | 6 => .rackRemove
  | 7 => .rodRead
  | 8 => .stringLoad
  | 9 => .stringCommit
  | 10 => .jobStart
  | 11 => .jobEnd
  | 12 => .shiftClose
  | 13 => .mark
  | 14 => .baseline
  | 15 => .addition
  | 16 => .downtime
  | 17 => .ackClass
  | 18 => .flushLag
  | 19 => .status
  | _ => .unknownRequest

/-- The step that takes the request at the head of the request FIFO, where the decoder is free (R20). -/
def requestDue (s : State) : Option Instr :=
  if decoderFree s then s.line.requests.head?.map fun f => requestStep f.tag.toNat else none

/-- A timer of a channel has run out (R28). -/
def channelDue (s : State) (c : Ch) : Option Instr :=
  if staleDue s c then some (.channelStale c)
  else if lostDue s c then some (.channelLost c)
  else if settleDue s c then some (.settleExpiry c)
  else none

/-- The FIELD transmitter has something to serve (R19). -/
def fieldDue (s : State) : Bool :=
  s.line.fieldLink.up && inLine s && !(s.line.injections.isEmpty && s.line.downstream.isEmpty)

/-- The CAB transmitter has something to begin (R18). -/
def cabDue (s : State) : Bool := s.line.cabLink.up && (cabClaim s).isSome

/-- A step where its event is the case. -/
def dueIf (b : Bool) (i : Instr) : Option Instr := if b then some i else none

/-- The step of the part's own that is due, the first of them where several are (log 2). -/
def nextOwn (s : State) : Option Instr :=
  ([ dueIf (s.line.response.isNone && s.line.completion.isSome) .completionResponsePlaced,
     dueIf (endingDone s).isSome .jobEndCompletion,
     dueIf (admissible s).isSome .recordAdmission,
     dueIf (linkDownDue s .field) (.linkDown .field),
     dueIf (linkDownDue s .cab) (.linkDown .cab),
     dueIf (statusPeriodDue s) .statusPeriod,
     (List.finRange 16).findSome? (channelDue s),
     dueIf (dwellReached s) .dwellExpiry,
     dueIf (secondDue s) .secondStep,
     requestDue s,
     dueIf (cabDue s) .cabTransmitBegin,
     dueIf (fieldDue s) .fieldTransmitBegin ] : List (Option Instr)).findSome? id

/-- With no command waiting, the part queues the step of its own that is due; where none is, and in reset, one
millisecond passes (log 2, log 11). -/
def idle (s : State) : State :=
  match inReset s, nextOwn s with
  | false, some i => { s with pending := [i] }
  | _, _ => { s with now := s.now + 1 }

end Sys2Proof.Machine
end

