-- ==== Sys2Proof/Machine/Dispatch.lean ====
section
/-! DEFINITION. Every command to its meaning. -/

namespace Sys2Proof.Machine

def exec (i : Instr) (s : State) : Host.Outcome State Fault Refusal :=
  match i with
  | .powerOnReset => Sys2Proof.Machine.execPowerOnReset s
  | .frameArrival port bytes => Sys2Proof.Machine.execFrameArrival port bytes s
  | .shortFrame port bytes => Sys2Proof.Machine.execShortFrame port bytes s
  | .linkDown port => Sys2Proof.Machine.execLinkDown port s
  | .cabTransmitBegin => Sys2Proof.Machine.execCabTransmitBegin s
  | .fieldTransmitBegin => Sys2Proof.Machine.execFieldTransmitBegin s
  | .recordAdmission => Sys2Proof.Machine.execRecordAdmission s
  | .completionResponsePlaced => Sys2Proof.Machine.execCompletionResponsePlaced s
  | .statusPeriod => Sys2Proof.Machine.execStatusPeriod s
  | .channelStale c => Sys2Proof.Machine.execChannelStale c s
  | .channelLost c => Sys2Proof.Machine.execChannelLost c s
  | .settleExpiry c => Sys2Proof.Machine.execSettleExpiry c s
  | .secondStep => Sys2Proof.Machine.execSecondStep s
  | .dwellExpiry => Sys2Proof.Machine.execDwellExpiry s
  | .jobEndCompletion => Sys2Proof.Machine.execJobEndCompletion s
  | .mode => Sys2Proof.Machine.execMode s
  | .load => Sys2Proof.Machine.execLoad s
  | .activate => Sys2Proof.Machine.execActivate s
  | .readTable => Sys2Proof.Machine.execReadTable s
  | .rackAdd => Sys2Proof.Machine.execRackAdd s
  | .rackRemove => Sys2Proof.Machine.execRackRemove s
  | .rodRead => Sys2Proof.Machine.execRodRead s
  | .stringLoad => Sys2Proof.Machine.execStringLoad s
  | .stringCommit => Sys2Proof.Machine.execStringCommit s
  | .jobStart => Sys2Proof.Machine.execJobStart s
  | .jobEnd => Sys2Proof.Machine.execJobEnd s
  | .shiftClose => Sys2Proof.Machine.execShiftClose s
  | .mark => Sys2Proof.Machine.execMark s
  | .baseline => Sys2Proof.Machine.execBaseline s
  | .addition => Sys2Proof.Machine.execAddition s
  | .downtime => Sys2Proof.Machine.execDowntime s
  | .ackClass => Sys2Proof.Machine.execAckClass s
  | .flushLag => Sys2Proof.Machine.execFlushLag s
  | .status => Sys2Proof.Machine.execStatus s
  | .unknownRequest => Sys2Proof.Machine.execUnknownRequest s

end Sys2Proof.Machine
end

