-- ==== Sys2Proof/Safety.lean ====
section
/-! DEFINITION. What statements are made of: a request that can be taken and its answer, an occurrence, and the laws that
every step keeps. -/

namespace Sys2Proof.Machine

/-! ## Requests and answers (R20, R21, R198, R199) -/

/-- A request of a TAG stands at the head of the request FIFO and the decoder may take it: the response slot is empty
and no completion response waits. -/
def Asks (s : State) (tag : BitVec 8) (f : Frame) (rest : List Frame) : Prop :=
  s.line.requests = f :: rest ∧ s.line.response = none ∧ s.line.completion = none ∧ f.tag = tag

/-- The state after the decoder has taken a request and answered it with a code and values, with nothing else
changed. -/
def answered (f : Frame) (rest : List Frame) (code : Nat) (vs : List Word) (s : State) : State :=
  { s with line := { s.line with
      requests := rest
      response := some
        { kind := 5, governed := true, node := 0, tag := f.tag, values := BitVec.ofNat 16 code :: vs } } }

/-- The response slot holds the answer to a request. -/
def Answer (t : State) (f : Frame) (rest : List Frame) (code : Nat) (vs : List Word) : Prop :=
  t.line.requests = rest ∧
    t.line.response = some
      { kind := 5, governed := true, node := 0, tag := f.tag, values := BitVec.ofNat 16 code :: vs }

/-- A request's own values as an answer echoes them: at most 14 (R199). -/
def echo (f : Frame) : List Word := f.values.take 14

/-- The value of a request as a number. -/
def value (f : Frame) (i : Nat) : Nat := (f.values.getD i 0).toNat

/-- The request kinds: the step that carries one out, its TAG, the COUNTs that fit it (R198). -/
def requestTable : List (Instr × Nat × List Nat) :=
  [ (.mode, 1, [1]), (.load, 2, [2, 3, 4, 5, 6, 7, 8, 9, 10, 11, 12, 13, 14]), (.activate, 3, [1]),
    (.readTable, 4, [3]), (.rackAdd, 5, [6]), (.rackRemove, 6, [1]), (.rodRead, 7, [1]), (.stringLoad, 8, [5, 13]),
    (.stringCommit, 9, [0]), (.jobStart, 10, [6]), (.jobEnd, 11, [1]), (.shiftClose, 12, [0]), (.mark, 13, [1]),
    (.baseline, 14, [0]), (.addition, 15, [2]), (.downtime, 16, [1]), (.ackClass, 17, [1]), (.flushLag, 18, [0]),
    (.status, 19, [0]) ]

/-! ## Records and setpoints (R4, R22, R182) -/

/-- The frames of a record of a type under a serial: value 0 is the serial and the frame's index, and in frame 0 value 1
the frame count (R4). -/
def framesOf (type serial : Nat) (frames : List (List Word)) : List Frame :=
  frames.zipIdx.map fun p =>
    { kind := 6, governed := true, node := 0, tag := BitVec.ofNat 8 type,
      values := BitVec.ofNat 16 (serial * 256 + p.2) ::
        ((if p.2 = 0 then [BitVec.ofNat 16 frames.length] else []) ++ p.1) }

/-- The line interface after a record has entered: the queue has grown at its end, the counter has advanced from 255 to
0, and the high-water mark is the fill where the record is a STATUS record, and the larger of itself and the fill
otherwise (R22). -/
def lineAfterEntry (type : Nat) (frames : List (List Word)) (x : LineState) : LineState :=
  { x with
    records := x.records ++ framesOf type x.serial frames
    serial := (x.serial + 1) % 256
    highWater := if type = 5 then x.records.length + frames.length
      else max x.highWater (x.records.length + frames.length) }

/-- The governor with a pump role's setpoint remembered (R182). -/
def withSetpoint (r : Role) (v : Nat) (g : GovState) : GovState :=
  match r with
  | .pump1 => { g with setpoint1 := some v }
  | .pump2 => { g with setpoint2 := some v }
  | _ => g

/-! ## Classes of a closing interval (R142, R144) -/

/-- The causes for which a closing interval of a length is UNCLASSED, in their order, each with whether it holds
(R144). -/
def unclassedCauses (o : OpenInterval) (length : Nat) : List Bool :=
  [o.minLength.isNone, o.area.isNone, o.bounds.isNone, decide (length < o.minLength.getD 0), decide (o.sumT < 1000)]

/-- The specific energy of a closing interval of a length, MPa, on a bit face area (R142). -/
def specificEnergy (o : OpenInterval) (area length : Nat) : Nat :=
  min 65535 ((o.sumRot * 62832 / 600000000 + o.sumThrust / 1000) * 1000 / (area * length))

/-! ## Tickets (R7, R155, R156, R161) -/

/-- The open interval that a cut at the hole depth closes into the open ticket: one of length, while a ticket is open
(R139, R140, R156). -/
def cutInterval (s : State) : Option OpenInterval :=
  s.interval.current.filter fun o => s.bill.ticketOpen && decide (o.top < s.depth.hole)

/-- The lines of the open ticket after a cut, `cls` being the effective class of the interval it closes: its length is
accrued to METRES(class, band), and to LOSS where its loss flag is set (R155, R156). -/
def cutLines (cls : Nat) (s : State) : Vector TicketLine 44 :=
  match cutInterval s with
  | none => s.bill.lines
  | some o =>
    let pages := activePages s tTariff
    let length := s.depth.hole - o.top
    let band := depthBandIn pages o.top
    Vector.ofFn fun key =>
      let l := s.bill.lines[key]
      let metres := if key.val = 4 * cls + band then
        l.accrue (lineDivisor key) length (metreRateIn pages cls band) else l
      if key.val = 32 ∧ o.loss = true then metres.accrue 1000 length (lossSurchargeIn pages) else metres

/-- The last interval closed into the open ticket after a cut (R156). -/
def cutLast (s : State) : Option Nat := ((cutInterval s).map (·.number)).or s.bill.lastInterval

/-- A TICKET record shows the open ticket of a state with given lines, last interval and current class, in the layout of
R7: the two heading frames, then the lines with a quantity, two to a frame (R161). -/
structure TicketShows (r : RecordBody) (final : Bool) (lines : Vector TicketLine 44) (last : Option Nat) (cls : Nat)
    (s : State) : Prop where
  type : r.type = 3
  count : r.frames.length = 2 + (lines.toList.countP (fun l => decide (0 < l.quantity)) + 1) / 2
  head : r.frames[0]? = some
    (let total := ((lines.toList.filter fun l => decide (0 < l.quantity)).map (·.amount)).sum
     let held := min 4294967295 total
     let flags := (if final then 1 else 0) + 2 * (if 4294967295 < total then 1 else 0) +
       4 * (if lines.toList.any (fun l => decide (0 < l.quantity) && l.saturated) then 1 else 0)
     [BitVec.ofNat 16 s.bill.jobNumber, BitVec.ofNat 16 s.bill.ticketNumber,
       BitVec.ofNat 16 (s.bill.openTime / 65536), BitVec.ofNat 16 s.bill.openTime,
       BitVec.ofNat 16 (s.depth.jobClock / 65536), BitVec.ofNat 16 s.depth.jobClock,
       BitVec.ofNat 16 (s.bill.openHole / 65536), BitVec.ofNat 16 s.bill.openHole,
       BitVec.ofNat 16 (s.depth.hole / 65536), BitVec.ofNat 16 s.depth.hole,
       BitVec.ofNat 16 (lines.toList.countP (fun l => decide (0 < l.quantity)) * 256 + flags),
       BitVec.ofNat 16 (held / 65536), BitVec.ofNat 16 held])
  sums : r.frames[1]? = some
    (let metres := ((lines.toList.take 32).map (·.quantity)).sum
     let seconds := (((lines.toList.drop 33).take 9).map (·.quantity)).sum
     let rods := lines[43].quantity
     let water := lines[42].quantity
     wordsOf32 (fitDouble metres) ++ wordsOf32 (fitDouble seconds) ++
       [BitVec.ofNat 16 (min 65535 rods), BitVec.ofNat 16 (water / 65536), BitVec.ofNat 16 water,
         BitVec.ofNat 16 cls, if s.bill.deferred then 1 else 0] ++
       match last with
       | some n => [BitVec.ofNat 16 (n / 65536), BitVec.ofNat 16 n]
       | none => [65535, 65535])
  lines : (r.frames.drop 2).flatten = (lines.toList.zipIdx.filter fun p => decide (0 < p.1.quantity)).flatMap fun p =>
    [BitVec.ofNat 16 (p.2 * 256 + if p.1.saturated then 1 else 0),
      BitVec.ofNat 16 (p.1.quantity / 65536), BitVec.ofNat 16 p.1.quantity,
      BitVec.ofNat 16 (p.1.amount / 65536), BitVec.ofNat 16 p.1.amount,
      BitVec.ofNat 16 (p.1.carry / 65536), BitVec.ofNat 16 p.1.carry]
  pairs : ∀ words ∈ (r.frames.drop 2).dropLast, words.length = 14

/-! ## Entry into the record queue (R22, R23) -/

/-- No record that waits can enter: the first one in admission order does not fit, or none waits. So the line interface
leaves every step (R23). -/
abbrev Settled (s : State) : Prop := admissible s = none

/-- The frames that have entered the record queue between two states of which no frame has left it. -/
def newFrames (s t : State) : List Frame := t.line.records.drop s.line.records.length

/-- A frame is the EVENT record of a source with a count, an applied flag, a first time and a detail (R4, R5). -/
def EventFrame (src : Source) (count : Nat) (applied : Bool) (time : Nat) (detail : BitVec 32) (f : Frame) : Prop :=
  f.kind = 6 ∧ f.tag = 4 ∧ (f.values.getD 2 0).toNat / 256 = src.val ∧
    (f.values.drop 3).take 5 = [BitVec.ofNat 16 (count * 256 + if applied then 1 else 0),
      BitVec.ofNat 16 (time / 65536), BitVec.ofNat 16 time, detail.extractLsb' 16 16, detail.extractLsb' 0 16]

/-- A frame is the first of a STATUS record with a cause (R4, R8). -/
def StatusFrame (cause : StatusCause) (f : Frame) : Prop :=
  f.kind = 6 ∧ f.tag = 5 ∧ (f.values.getD 0 0).toNat % 256 = 0 ∧ f.values[14]? = some (BitVec.ofNat 16 cause.code)

/-- STATUS has become due with a cause, unless it was due already: it is still due, or its record has entered at once
(R23, R24). -/
def StatusMade (cause : StatusCause) (s t : State) : Prop :=
  let first := s.line.statusDue.getD cause
  t.line.statusDue = some first ∨ ∃ f ∈ newFrames s t, StatusFrame first f

/-! ## Occurrences (R168) -/

/-- Between two states a source has had one occurrence: its first time is the job time where it was not pending, its
detail and applied flag are the occurrence's, and either it is pending and its count is one more up to 255, or its record
has entered with that count and its pending flag and count are cleared (R23, R168, R170). -/
def Occurred (src : Source) (detail : BitVec 32) (applied : Bool) (s t : State) : Prop :=
  let a := s.event.accounts[src]
  let b := t.event.accounts[src]
  let count := min 255 (a.count + 1)
  let time := if a.pending then a.firstTime else s.depth.jobClock
  b.firstTime = time ∧ b.detail = detail ∧ b.applied = applied ∧
    ((b.pending = true ∧ b.count = count) ∨
      (b.pending = false ∧ b.count = 0 ∧ ∃ f ∈ newFrames s t, EventFrame src count applied time detail f))

/-- Between two states a source has had occurrences with an applied flag: it is pending, or a record of it has entered. -/
def Stands (src : Source) (applied : Bool) (s t : State) : Prop :=
  t.event.accounts[src].applied = applied ∧
    (t.event.accounts[src].pending = true ∨
      ∃ f ∈ newFrames s t, ∃ count time detail, EventFrame src count applied time detail f)

/-- What an occurrence or a report never touches: everything but the event unit, the STATUS due flag and the waiting
injections. -/
def SameButEvents (s t : State) : Prop :=
  t = { s with
    event := t.event
    line := { s.line with statusDue := t.line.statusDue, injections := t.line.injections } }

/-- What occurrences and reports, with the entry of the EVENT and STATUS records they bring, never touch: of the line
interface only the STATUS due flag, the waiting injections, the record queue, its serial counter and its high-water mark
differ; the queue has grown at its end by frames of EVENT and STATUS records. -/
def SameButRecords (s t : State) : Prop :=
  t = { s with
    event := t.event
    line := { s.line with
      statusDue := t.line.statusDue, injections := t.line.injections, records := t.line.records,
      serial := t.line.serial, highWater := t.line.highWater } } ∧
    s.line.records <+: t.line.records ∧ (∀ f ∈ newFrames s t, f.kind = 6 ∧ (f.tag = 4 ∨ f.tag = 5)) ∧
    (t.line.records = s.line.records → t.line.serial = s.line.serial ∧ t.line.highWater = s.line.highWater)

/-! ## Laws of single states -/

/-- Every FIFO, queue, list and count is within the size the spec gives it, and a record that waits has the frames of its
type (R5, R7, R12, R18 to R20, R22, R66, R70, R72, R87, R116, R119, R162, R167). -/
structure Fits (s : State) : Prop where
  forward : s.line.forward.length ≤ 16
  downstream : s.line.downstream.length ≤ 8
  requests : s.line.requests.length ≤ 4
  injections : s.line.injections.length ≤ 4
  forwardedRun : s.line.forwardedRun ≤ 8
  records : s.line.records.length ≤ 64
  serial : s.line.serial ≤ 255
  highWater : s.line.highWater ≤ 64
  rodTable : s.rod.table.length ≤ 256
  string : s.rod.string.length ≤ 250
  loadCount : ∀ h, s.rod.loadHeader = some h → h.count ≤ 250
  rodOut : s.rod.out.length ≤ 16
  rodRecords : ∀ r ∈ s.rod.out, r.type = 1 ∧ r.frames.length = 1
  ticket : ∀ r, s.bill.outBuffer = some r → r.type = 3 ∧ 2 ≤ r.frames.length ∧ r.frames.length ≤ 24
  lagQueue : s.lag.queue.length ≤ 64
  lagHold : s.lag.hold.length ≤ 4
  counts : ∀ src : Source, s.event.accounts[src].count ≤ 255

/-- The BYPASS output follows the mode and the reset, and in BYPASS nothing waits for the FIELD or CAB line but responses
and records, every channel is ABSENT unsettled, both stroke rates are absent, the activity is UNTRACKED and the governor
holds nothing (R13, R15, R18, R30, R57, R89, R191). -/
structure BypassLaw (s : State) : Prop where
  output : s.line.bypassOut = bypassAsserted s
  forward : s.line.mode = .bypass → s.line.forward = []
  downstream : s.line.mode = .bypass → s.line.downstream = []
  injections : s.line.mode = .bypass → s.line.injections = []
  channels : s.line.mode = .bypass → ∀ c : Ch, s.channels[c].state = .absentUnsettled
  rate1 : s.line.mode = .bypass → s.circ.rate1 = none
  rate2 : s.line.mode = .bypass → s.circ.rate2 = none
  activity : s.line.mode = .bypass → s.depth.activity = .untracked
  candidate : s.line.mode = .bypass → s.depth.candidate = .untracked
  dwell : s.line.mode = .bypass → s.depth.dwellStart = none
  setpoint1 : s.line.mode = .bypass → s.gov.setpoint1 = none
  setpoint2 : s.line.mode = .bypass → s.gov.setpoint2 = none
  holder : s.line.mode = .bypass → s.gov.holder = .none

/-- What the job state says of the ticket, the interval, the clock, the deferred tariff and the ending watch
(R62, R131, R140, R148, R151, R152, R165). -/
structure JobLaw (s : State) : Prop where
  ticket : s.bill.ticketOpen = (s.bill.job == .opened)
  interval : s.interval.current.isSome = (s.bill.job == .opened)
  clock : s.depth.clockRuns = (s.bill.job != .noJob)
  deferred : s.bill.deferred = true → s.bill.job = .opened
  ending : s.bill.ending.isSome = (s.bill.job == .ending)
  jobNumber : s.bill.job = .noJob → s.bill.jobNumber = 0
  ticketNumber : s.bill.job = .noJob → s.bill.ticketNumber = 0

/-- The conditions of the channel unit's and the link's sources are those of the states they speak of
(R2, R31, R36). -/
structure ConditionLaw (s : State) : Prop where
  limits : ∀ c l src, limitSource c l = some src → cond s src = (s.channels[c].limit l == .tripped)
  faults : ∀ c, cond s (srcChFault c) = channelFault s c
  link : cond s srcLinkDown = linkDownCond s

/-- No two rod records have the same tag; the string refers once to each rod in state STRING and to no other; the
candidate is a rod in RACK (R66, R75, R76). -/
structure RodLaw (s : State) : Prop where
  tags : (s.rod.table.map (·.tag)).Nodup
  string : s.rod.string.Nodup
  inString : ∀ n, n ∈ s.rod.string ↔ ∃ r ∈ s.rod.table, r.tag = n ∧ r.place = .string
  candidate : ∀ n, s.rod.candidate = some n → ∃ r ∈ s.rod.table, r.tag = n ∧ r.place = .rack

/-- The sums of the rod unit are those over the string's rods under the active RODCLASS (R74). -/
structure SumsLaw (s : State) : Prop where
  length : s.rod.length = ((stringRods s).map fun r => r.length).sum
  weight : s.rod.weight = ((stringRods s).map fun r => (rodClass s r.cls).weight * r.length).sum
  steel : s.rod.steel = ((stringRods s).map fun r => (rodClass s r.cls).steel * r.length).sum

end Sys2Proof.Machine
end

