-- ==== Sys2Proof/WellFormed.lean ====
section
/-! DEFINITION. Which commands are well formed: a FRAME_ARRIVAL carries exactly the bytes its frame's COUNT
asks for, a SHORT_FRAME fewer (R1). -/

namespace Sys2Proof

/-- The run of bytes is one whole frame (R1). -/
def isWholeFrame : List Byte → Bool
  | [] => false
  | b :: bs => (b :: bs).length == expectedBytes b

/-- The run of bytes stopped before its last expected byte (R1). -/
def isShortFrame : List Byte → Bool
  | [] => false
  | b :: bs => (b :: bs).length < expectedBytes b

/-- Well-formed commands. Every other operand is well formed by its type. -/
def Instr.wf : Instr → Bool
  | .frameArrival _ bytes => isWholeFrame bytes
  | .shortFrame _ bytes => isShortFrame bytes
  | .powerOnReset | .linkDown _ | .cabTransmitBegin | .fieldTransmitBegin | .recordAdmission
  | .completionResponsePlaced | .statusPeriod | .channelStale _ | .channelLost _ | .settleExpiry _
  | .secondStep | .dwellExpiry | .jobEndCompletion | .mode | .load | .activate | .readTable
  | .rackAdd | .rackRemove | .rodRead | .stringLoad | .stringCommit | .jobStart | .jobEnd
  | .shiftClose | .mark | .baseline | .addition | .downtime | .ackClass | .flushLag | .status
  | .unknownRequest => true

end Sys2Proof
end

