-- ==== Sys2Proof/Certificates/Slice0/Obligations.lean ====
section
/-! DEFINITION. The statements about the model, each a proposition to be proved. -/

open Sys2Proof Sys2Proof.Machine

/-! ## The queue of commands -/

/-- A step runs the command at the front of the queue with the queue's rest (log 1). -/
def Obligations.StepRunsFrontCommand : Prop :=
  ∀ (i : Instr) (rest : List Instr) (s : State),
    step { s with pending := i :: rest } = exec i { s with pending := rest }

/-- Every command is carried out to a next state and leaves the queue of waiting commands, and the free order of
notices, as they are. -/
def Obligations.EveryCommandAnswersNext : Prop :=
  ∀ (i : Instr) (s : State), ∃ t, exec i s = .next t ∧ t.pending = s.pending ∧ t.noticeOrder = s.noticeOrder

/-! ## Frames on the line -/

/-- The bytes of a frame are read back as that frame, and bytes that pass the check are those of the frame read
(R3, R9). -/
def Obligations.FrameBytesReadBack : Prop :=
  (∀ f : Frame, f.values.length ≤ 15 → parseFrame (frameBytes f) = some f) ∧
  (∀ (bytes : List Byte) (f : Frame), parseFrame bytes = some f → frameBytes f = bytes ∧ f.values.length ≤ 15)

/-- A short frame, and a whole frame that fails the check, is dropped: nothing but the event unit's share and the records
it brings changes, and LINE_CHECK occurs with the arriving port (R1, R9). -/
def Obligations.FailedCheckIsDropped : Prop :=
  ∀ (p : Port) (bytes : List Byte) (s : State), Settled s →
    (isShortFrame bytes = true → ∃ t, exec (.shortFrame p bytes) s = .next t ∧ SameButRecords s t ∧
      Occurred srcLineCheck (match p with | .field => 0 | .cab => 1) true s t) ∧
    (isWholeFrame bytes = true → parseFrame bytes = none →
      ∃ t, exec (.frameArrival p bytes) s = .next t ∧ SameButRecords s t ∧
        Occurred srcLineCheck (match p with | .field => 0 | .cab => 1) true s t)

/-- A well-formed frame on the FIELD port makes it UP and restarts its timer; in BYPASS it is dropped; in OBSERVE and
GOVERN a frame that is no SAMPLE goes unchanged to the forward FIFO, or, where that is full, is dropped with
FORWARD_OVERRUN (R2, R10, R12). -/
def Obligations.FieldFrameIsForwarded : Prop :=
  ∀ (s : State) (f : Frame), Settled s → f.values.length ≤ 15 →
    let up : LineState := { s.line with fieldLink := { up := true, everUp := true, timerStart := s.now } };
    (s.line.mode = .bypass →
      ∃ t, exec (.frameArrival .field (frameBytes f)) s = .next t ∧ SameButRecords { s with line := up } t) ∧
    (s.line.mode ≠ .bypass → f.kind ≠ 1 → s.line.forward.length < 16 →
      ∃ t, exec (.frameArrival .field (frameBytes f)) s = .next t ∧
        SameButRecords { s with line := { up with forward := s.line.forward ++ [f] } } t) ∧
    (s.line.mode ≠ .bypass → f.kind ≠ 1 → 16 ≤ s.line.forward.length →
      ∃ t, exec (.frameArrival .field (frameBytes f)) s = .next t ∧ SameButRecords { s with line := up } t ∧
        Occurred srcForwardOverrun 0 true s t)

/-- A well-formed frame on the CAB port: a REQUEST for node 0 is offered to the request FIFO in every mode; any other
frame is dropped in BYPASS and offered to the downstream FIFO otherwise; a full FIFO drops it with its occurrence
(R2, R11, R12, R20). -/
def Obligations.CabFrameIsDisposedOf : Prop :=
  ∀ (s : State) (f : Frame), Settled s → f.values.length ≤ 15 →
    let up : LineState := { s.line with cabLink := { up := true, everUp := true, timerStart := s.now } };
    (f.kind = 4 → f.node = 0 → s.line.requests.length < 4 →
      ∃ t, exec (.frameArrival .cab (frameBytes f)) s = .next t ∧
        SameButRecords { s with line := { up with requests := s.line.requests ++ [f] } } t) ∧
    (f.kind = 4 → f.node = 0 → 4 ≤ s.line.requests.length →
      ∃ t, exec (.frameArrival .cab (frameBytes f)) s = .next t ∧ SameButRecords { s with line := up } t ∧
        Occurred srcRequestOverrun (f.tag.zeroExtend 32) true s t) ∧
    (¬(f.kind = 4 ∧ f.node = 0) → s.line.mode = .bypass →
      ∃ t, exec (.frameArrival .cab (frameBytes f)) s = .next t ∧ SameButRecords { s with line := up } t) ∧
    (¬(f.kind = 4 ∧ f.node = 0) → s.line.mode ≠ .bypass → s.line.downstream.length < 8 →
      ∃ t, exec (.frameArrival .cab (frameBytes f)) s = .next t ∧
        SameButRecords { s with line := { up with downstream := s.line.downstream ++ [f] } } t) ∧
    (¬(f.kind = 4 ∧ f.node = 0) → s.line.mode ≠ .bypass → 8 ≤ s.line.downstream.length →
      ∃ t, exec (.frameArrival .cab (frameBytes f)) s = .next t ∧ SameButRecords { s with line := up } t ∧
        Occurred srcForwardOverrun 1 true s t)

/-- A SAMPLE frame in OBSERVE or GOVERN: every bound channel whose node and tag are the frame's and whose value it
carries settles or accepts it, an out-of-set discrete code and a frame too short change nothing of the channel, and
every other channel keeps its state. The frame goes unchanged to the forward FIFO as well, or, where that is full, is
dropped there with FORWARD_OVERRUN of the FIELD port (R10, R12, R26, R27, R28, R29, R33). -/
def Obligations.SampleFrameFeedsChannels : Prop :=
  ∀ (s : State) (f : Frame), f.values.length ≤ 15 → f.kind = 1 → s.line.mode ≠ .bypass →
    ∃ t, exec (.frameArrival .field (frameBytes f)) s = .next t ∧
      (∀ (c : Ch) (b : Binding) (w : Word), binding s c = some b → b.node = f.node.toNat → b.tag = f.tag.toNat →
        f.values[b.index]? = some w →
        let x := s.channels[c];
        let y := t.channels[c];
        if channelKind c = .discrete ∧ discreteMax c < w.toNat then y = x
        else if x.state = .absentUnsettled ∨ x.state = .lost then
          y.state = .absentSettled ∧ y.value = none ∧ y.mark = false ∧ y.takenAt = s.now ∧
            y.baseline = (if channelKind c = .counter then some w.toNat else none)
        else
          y.state = .live ∧ y.takenAt = s.now ∧
            y.baseline = (if channelKind c = .counter then some w.toNat else none) ∧
            (if channelKind c = .analog then y.value = some (calibrateOn s c w.toNat).1 ∧
                y.mark = (calibrateOn s c w.toNat).2
              else y.value = some w.toNat ∧ y.mark = false)) ∧
      (∀ c : Ch, (∀ b, binding s c = some b → b.node = f.node.toNat → b.tag = f.tag.toNat →
        f.values[b.index]? = none) → t.channels[c] = s.channels[c]) ∧
      (s.line.forward.length < 16 → t.line.forward = s.line.forward ++ [f]) ∧
      (16 ≤ s.line.forward.length → t.line.forward = s.line.forward ∧
        t.event.accounts[srcForwardOverrun].detail = 0 ∧ Stands srcForwardOverrun true s t)

/-- An UP port whose timer has run 2,000 ms falls DOWN: LINK_DOWN occurs with the port and its condition is that a port
that has been UP is DOWN. That the step changes nothing of a port whose time has not come, or that is DOWN already, is
the model's choice (log 3) (R2). -/
def Obligations.LinkFallsDown : Prop :=
  ∀ s : State, Settled s →
    (s.line.fieldLink.up = true → 2000 ≤ s.now - s.line.fieldLink.timerStart →
      ∃ t, exec (.linkDown .field) s = .next t ∧
        SameButRecords { s with line := { s.line with fieldLink := { s.line.fieldLink with up := false } } } t ∧
        Occurred srcLinkDown 0 true s t ∧ cond t srcLinkDown = linkDownCond t) ∧
    (s.line.cabLink.up = true → 2000 ≤ s.now - s.line.cabLink.timerStart →
      ∃ t, exec (.linkDown .cab) s = .next t ∧
        SameButRecords { s with line := { s.line with cabLink := { s.line.cabLink with up := false } } } t ∧
        Occurred srcLinkDown 1 true s t ∧ cond t srcLinkDown = linkDownCond t) ∧
    (s.line.fieldLink.up = false ∨ s.now - s.line.fieldLink.timerStart < 2000 → exec (.linkDown .field) s = .next s) ∧
    (s.line.cabLink.up = false ∨ s.now - s.line.cabLink.timerStart < 2000 → exec (.linkDown .cab) s = .next s)

/-! ## The transmitters -/

/-- The CAB arbiter begins the response, else the head of the forward FIFO while fewer than 8 forwarded frames have
gone since a record frame or no record waits, else the head of the record queue; a DOWN port begins nothing. As a frame
leaves the record queue the line interface admits records: with none waiting, or with a first ticket that still does not
fit, nothing more happens; a first ticket that fits now enters behind what is left (R18, R22, R23). -/
def Obligations.CabArbiterBegins : Prop :=
  ∀ s : State,
    (s.line.cabLink.up = false → exec .cabTransmitBegin s = .next s) ∧
    (s.line.cabLink.up = true →
      (∀ f, s.line.response = some f →
        exec .cabTransmitBegin s = .next { s with line := { s.line with response := none, cabOut := some f } }) ∧
      (∀ f rest, s.line.response = none → s.line.forward = f :: rest →
        (s.line.forwardedRun < 8 ∨ s.line.records = []) →
        exec .cabTransmitBegin s = .next { s with line := { s.line with
          forward := rest, forwardedRun := min 8 (s.line.forwardedRun + 1), cabOut := some f } }) ∧
      (∀ f rest, s.line.response = none → (s.line.forward = [] ∨ 8 ≤ s.line.forwardedRun) →
        s.line.records = f :: rest →
        let begun := { s with line := { s.line with records := rest, forwardedRun := 0, cabOut := some f } };
        (∃ t, exec .cabTransmitBegin s = .next t ∧ rest <+: t.line.records ∧
          t = { s with
            event := t.event, lag := t.lag
            rod := { s.rod with out := t.rod.out }
            bill := { s.bill with outBuffer := t.bill.outBuffer, ending := t.bill.ending }
            line := { begun.line with
              statusDue := t.line.statusDue, injections := t.line.injections, records := t.line.records
              serial := t.line.serial, highWater := t.line.highWater } } ∧
          (∀ frames, s.rod.out = [] → s.bill.outBuffer = some { type := 3, frames := frames } →
            rest.length + frames.length ≤ 64 →
            rest ++ framesOf 3 s.line.serial frames <+: t.line.records ∧ t.bill.outBuffer = none)) ∧
        (waiting s = [] → exec .cabTransmitBegin s = .next begun) ∧
        (∀ r, s.rod.out = [] → s.bill.outBuffer = some r → 64 - rest.length < r.frames.length →
          exec .cabTransmitBegin s = .next begun)) ∧
      (s.line.response = none → s.line.forward = [] → s.line.records = [] → exec .cabTransmitBegin s = .next s))

/-- The FIELD transmitter begins the oldest waiting injection, else the head of the downstream FIFO, which goes
unchanged where it is no role command or carries no value; it begins nothing in BYPASS or on a DOWN port. A pump
injection goes as it was formed, but in GOVERN above its limit, where it is lowered to the limit and PUMP_CLAMP occurs;
the value sent is remembered (R19, R179, R182, R184). -/
def Obligations.FieldTransmitterServes : Prop :=
  ∀ s : State,
    (s.line.fieldLink.up = false ∨ s.line.mode = .bypass → exec .fieldTransmitBegin s = .next s) ∧
    (s.line.fieldLink.up = true → s.line.mode ≠ .bypass →
      (∀ i rest, s.line.injections = i :: rest → i.role ≠ .pump1 → i.role ≠ .pump2 →
        exec .fieldTransmitBegin s = .next { s with line := { s.line with
          injections := rest, fieldOut := some i.frame } }) ∧
      (∀ i rest, s.line.injections = i :: rest → i.role = .pump1 ∨ i.role = .pump2 →
        let v := value i.frame 0;
        (s.line.mode = .observe ∨ pumpLimit s i.role = none ∨ (∃ limit, pumpLimit s i.role = some limit ∧ v ≤ limit) →
          exec .fieldTransmitBegin s = .next { s with
            line := { s.line with injections := rest, fieldOut := some i.frame }
            gov := withSetpoint i.role v s.gov }) ∧
        (∀ limit, Settled s → s.line.mode = .govern → pumpLimit s i.role = some limit → limit < v →
          ∃ t, exec .fieldTransmitBegin s = .next t ∧
            SameButRecords { s with
              line := { s.line with
                injections := rest
                fieldOut := some { i.frame with values := [BitVec.ofNat 16 limit] } }
              gov := withSetpoint i.role limit s.gov } t ∧
            Occurred srcPumpClamp (BitVec.ofNat 32 (v * 65536 + limit)) true s t)) ∧
      (∀ f rest, s.line.injections = [] → s.line.downstream = f :: rest → (roleOf s f = none ∨ f.values = []) →
        exec .fieldTransmitBegin s = .next { s with line := { s.line with
          downstream := rest, fieldOut := some f } }) ∧
      (s.line.injections = [] → s.line.downstream = [] → exec .fieldTransmitBegin s = .next s))

/-- The limit of a pump role is the lowest term that applies: the active segment's maximum rate, its hold rate while
PRESSURE_HOLD is true, the remembered setpoint while HOLD_PUMP_RATE is in force, 0 while STOP_PUMPS is; without a term
there is none. A PUMP1_RATE or PUMP2_RATE command without a limit, or within it, is sent as it stands; one above its limit
is sent in GOVERN with the limit in place of its first value and GOVERNED set, and unchanged in OBSERVE, PUMP_CLAMP
occurring with applied set in GOVERN and clear in OBSERVE; the value sent is remembered. In GOVERN no pump command is begun
with a value above the active segment's maximum rate, nor above its hold rate while PRESSURE_HOLD is true: of the frame that
a step begins on a FIELD line marked empty before it this holds for a pump injection, for an injection of 0 of any role, and
for a command of the FIFO, be it begun first or after drops (R92, R179, R180, R181, R182, R184). -/
def Obligations.PumpCommandIsHeldToLimit : Prop :=
  (∀ (s : State) (r : Role), r = .pump1 ∨ r = .pump2 →
    let remembered := if r = .pump1 then s.gov.setpoint1 else s.gov.setpoint2;
    let segmentWord := fun word x : Nat =>
      ∃ k, s.circ.segment = some k ∧ x = pageWord (activePages s tMudprog) (k + 1) word;
    let term := fun x : Nat =>
      segmentWord 4 x ∨ (cond s srcPressureHold = true ∧ segmentWord 6 x) ∨
        (actionInForce s .holdPumpRate = true ∧ remembered = some x) ∨ (actionInForce s .stopPumps = true ∧ x = 0);
    (pumpLimit s r = none ↔ ∀ x, ¬term x) ∧
    (∀ limit, pumpLimit s r = some limit ↔ term limit ∧ ∀ x, term x → limit ≤ x)) ∧
  (∀ (s t : State) (g : Frame) (v : Word) (vs : List Word) (k : Nat), s.line.mode = .govern →
    (∀ i ∈ s.line.injections.head?, i.role = .pump1 ∨ i.role = .pump2 ∨ value i.frame 0 = 0) →
    exec .fieldTransmitBegin { s with line := { s.line with fieldOut := none } } = .next t →
    t.line.fieldOut = some g → g.values = v :: vs →
    (s.line.injections = [] → ∃ r : Role, (r = .pump1 ∨ r = .pump2) ∧ roleOf s g = some r) →
    s.circ.segment = some k →
    v.toNat ≤ pageWord (activePages s tMudprog) (k + 1) 4 ∧
      (cond s srcPressureHold = true → v.toNat ≤ pageWord (activePages s tMudprog) (k + 1) 6)) ∧
  ∀ (s : State) (f : Frame) (rest : List Frame) (r : Role) (v : Word) (vs : List Word),
    s.line.fieldLink.up = true → s.line.mode ≠ .bypass → s.line.injections = [] → s.line.downstream = f :: rest →
    r = .pump1 ∨ r = .pump2 → roleOf s f = some r → f.values = v :: vs →
    let sent := fun (g : Frame) (x : Nat) => { s with
      line := { s.line with downstream := rest, fieldOut := some g }
      gov := withSetpoint r x s.gov };
    (pumpLimit s r = none → exec .fieldTransmitBegin s = .next (sent f v.toNat)) ∧
    (∀ limit, pumpLimit s r = some limit → v.toNat ≤ limit → exec .fieldTransmitBegin s = .next (sent f v.toNat)) ∧
    (∀ limit, Settled s → pumpLimit s r = some limit → limit < v.toNat → s.line.mode = .govern →
      ∃ t, exec .fieldTransmitBegin s = .next t ∧
        SameButRecords (sent { f with governed := true, values := BitVec.ofNat 16 limit :: vs } limit) t ∧
        Occurred srcPumpClamp (BitVec.ofNat 32 (v.toNat * 65536 + limit)) true s t) ∧
    (∀ limit, Settled s → pumpLimit s r = some limit → limit < v.toNat → s.line.mode = .observe →
      ∃ t, exec .fieldTransmitBegin s = .next t ∧ SameButRecords (sent f v.toNat) t ∧
        Stands srcPumpClamp false s t)

/-- A HOIST, SLIPS, TONG or HANDLER command is sent unchanged, or refused with its occurrence, the detail being cause ×
65,536 + auxiliary: a lowering under HOLD_HOIST_LOWER or into the handler's margin, a release that the hook does not
carry, a tong command held, without slips, candidate or rod, a handler held or without the well centre, and a value out
of its set. A refusal drops the frame in GOVERN, with applied set, and sends it unchanged in OBSERVE, with applied
clear; a present command that passes takes the claim, and one that is refused in OBSERVE takes a claim that nobody holds.
The FIELD transmitter puts a frame that is sent on the line with what the decision leaves; after a drop it serves again at
once: the step leaves what a step from the state after the drop leaves, but for the event unit, the STATUS due flag, the
injections and the records that enter at the end of the step (R19, R180, R185, R186, R187, R189). -/
def Obligations.RigCommandsAreGoverned : Prop :=
  (∀ (s : State) (f : Frame) (w : Word) (vs : List Word), s.line.mode ≠ .bypass → f.values = w :: vs →
    let refused := fun (src : Source) (cause aux : Nat) =>
      (govern f s).1 = (if s.line.mode = .govern then none else some f) ∧ SameButEvents s (govern f s).2 ∧
        Occurred src (BitVec.ofNat 32 (cause * 65536 + aux)) (s.line.mode == .govern) s (govern f s).2;
    let sent := govern f s = (some f, s);
    let v := w.toNat;
    (roleOf s f = some .hoist →
      let near := match held s 7, settings s with
        | some b, some g => b ≤ g.handlerClearance + g.lowerMargin
        | _, _ => True;
      (0 ≤ w.toInt → sent) ∧
      (w.toInt < 0 → actionInForce s .holdHoistLower = true → refused srcHoistHeld 1 v) ∧
      (w.toInt < 0 → actionInForce s .holdHoistLower = false → s.gov.holder = .handler → near →
        refused srcHoistHeld 2 v) ∧
      (w.toInt < 0 → actionInForce s .holdHoistLower = false → ¬(s.gov.holder = .handler ∧ near) → sent)) ∧
    (roleOf s f = some .slips →
      (v = 1 → sent) ∧ (1 < v → refused srcSlipsRefused 3 v) ∧
      (v = 0 → s.channels[(6 : Ch)].state ≠ .live → refused srcSlipsRefused 1 0) ∧
      (∀ h g, v = 0 → s.channels[(6 : Ch)].state = .live → held s 6 = some h → settings s = some g →
        let load : Int := (h : Int) * 10 - g.blockWeight;
        (s.depth.buoyed * g.slipsReleasePercent ≤ load * 100 → sent) ∧
        (load * 100 < s.depth.buoyed * g.slipsReleasePercent → refused srcSlipsRefused 2 h))) ∧
    (roleOf s f = some .tong →
      let slipsSet := s.channels[(10 : Ch)].state = .live ∧ held s 10 ≠ some 0;
      (v = 0 → sent) ∧ (2 < v → refused srcTongRefused 5 v) ∧
      (v = 1 ∨ v = 2 → actionInForce s .holdTong = true → refused srcTongRefused 1 v) ∧
      (v = 1 ∨ v = 2 → actionInForce s .holdTong = false → ¬slipsSet → refused srcTongRefused 2 v) ∧
      (v = 1 → actionInForce s .holdTong = false → slipsSet → s.rod.candidate = none →
        refused srcTongRefused 3 v) ∧
      (v = 1 → actionInForce s .holdTong = false → slipsSet → s.rod.candidate ≠ none → sent) ∧
      (v = 2 → actionInForce s .holdTong = false → slipsSet → s.rod.string = [] → refused srcTongRefused 4 v) ∧
      (v = 2 → actionInForce s .holdTong = false → slipsSet → s.rod.string ≠ [] → sent)) ∧
    (roleOf s f = some .handler →
      (v = 0 → sent) ∧ (1 < v → refused srcWellCentreRefused 5 v) ∧
      (v = 1 → actionInForce s .holdHandler = true → (s.line.mode = .govern ∨ s.gov.holder ≠ .none) →
        refused srcWellCentreRefused 3 0) ∧
      (v = 1 → actionInForce s .holdHandler = true → s.line.mode = .observe → s.gov.holder = .none →
        (govern f s).1 = some f ∧
          SameButEvents { s with gov := { s.gov with holder := .handler, moving := false } } (govern f s).2 ∧
          Occurred srcWellCentreRefused (BitVec.ofNat 32 (3 * 65536)) false s (govern f s).2) ∧
      (v = 1 → actionInForce s .holdHandler = false → s.gov.holder = .topDrive →
        refused srcWellCentreRefused 1 (min 65535 (s.gov.lastBlock.getD 65535))) ∧
      (v = 1 → actionInForce s .holdHandler = false → s.gov.holder = .handler → refused srcWellCentreRefused 2 0) ∧
      (v = 1 → actionInForce s .holdHandler = false → s.gov.holder = .none →
        govern f s = (some f, { s with gov := { s.gov with holder := .handler, moving := false } })))) ∧
  (∀ (s : State) (f : Frame) (rest : List Frame) (r : Role), s.line.fieldLink.up = true → s.line.mode ≠ .bypass →
    s.line.injections = [] → s.line.downstream = f :: rest → roleOf s f = some r → r ≠ .pump1 → r ≠ .pump2 →
    let taken := { s with line := { s.line with downstream := rest } };
    let after := (govern f taken).2;
    let raised := fun (applied : Bool) (t : State) =>
      ∀ (src : Source) (detail : BitVec 32),
        src ∈ [srcHoistHeld, srcSlipsRefused, srcTongRefused, srcWellCentreRefused] →
        Occurred src detail applied taken after → Occurred src detail applied s t;
    (∀ claim : GovState, govern f taken = (some f, { taken with gov := claim }) →
      exec .fieldTransmitBegin s = .next { taken with
        gov := claim, line := { taken.line with fieldOut := some f } }) ∧
    (Settled s → s.line.mode = .observe →
      ∃ t, exec .fieldTransmitBegin s = .next t ∧ raised false t ∧
        SameButRecords { taken with gov := after.gov, line := { taken.line with fieldOut := some f } } t) ∧
    (Settled s → (govern f taken).1 = none →
      (∃ t u, exec .fieldTransmitBegin s = .next t ∧ exec .fieldTransmitBegin after = .next u ∧
        t = { u with
          event := t.event
          line := { u.line with
            statusDue := t.line.statusDue, injections := t.line.injections, records := t.line.records,
            serial := t.line.serial, highWater := t.line.highWater } }) ∧
      (rest = [] → after.line.injections = [] →
        ∃ t, exec .fieldTransmitBegin s = .next t ∧ SameButRecords taken t ∧ raised true t)))

/-- In GOVERN, while TOP_DRIVE holds the well centre and no injection waits, no HANDLER present command is begun on the
FIELD line, and TOP_DRIVE goes on holding (R188, R189). -/
def Obligations.NoPresentWhileTopDriveHolds : Prop :=
  ∀ (s t : State), s.line.mode = .govern → s.gov.holder = .topDrive → s.line.injections = [] →
    exec .fieldTransmitBegin s = .next t →
    t.gov.holder = .topDrive ∧
      (t.line.fieldOut = s.line.fieldOut ∨
        ∃ f, t.line.fieldOut = some f ∧ ¬(roleOf s f = some .handler ∧ ∃ vs, f.values = 1 :: vs))

/-! ## Records -/

/-- A record that waits alone, of any producer, enters whole where it fits, with the counter's value as its serial:
the queue grows at its end, the counter advances from 255 to 0, the high-water mark follows the fill, and the producer
no longer offers it. A STATUS record reports the mark as it stood and sets it to the fill; an EVENT record clears its
source's pending flag and count, and with one place left it is that of the lowest pending source, the others waiting
on with RECORD_QUEUE_FULL. With a first ROD record too large for the free space, or a TICKET too large and no ROD
record waiting, and wherever no record that waits can enter, nothing changes. That a STRATA record enters while CAB is
DOWN too, and what the ticket number of a STATUS record is while ENDING, are the model's choices (log 30, log 31) (R4,
R5, R22, R23, R87, R121, R126, R162, R170). -/
def Obligations.RecordsEnterInOrder : Prop :=
  ∀ s : State,
    let noRod := s.rod.out = [];
    let noTicket := s.bill.outBuffer = none;
    let noStrata := s.lag.hold = [] ∧ ∀ e ∈ s.lag.queue.head?, e.stage = .waiting;
    let noEvent := ∀ src : Source, s.event.accounts[src].pending = false;
    let fill := s.line.records.length;
    let eventFrame := fun src : Source =>
      let a := s.event.accounts[src];
      let k := routeOf s src;
      [BitVec.ofNat 16 (src.val * 256 + (k.map (·.val)).getD 255),
        BitVec.ofNat 16 (a.count * 256 + if a.applied then 1 else 0),
        BitVec.ofNat 16 (a.firstTime / 65536), BitVec.ofNat 16 a.firstTime,
        a.detail.extractLsb' 16 16, a.detail.extractLsb' 0 16,
        (if isConditionSource src then (if a.cond then 1 else 0) else 2),
        BitVec.ofNat 16 ((k.map fun j => levelIn (activePages s tRoute) j.val).getD 255)];
    let lagDone := fun e : EndingWatch => { e with lagDone := true };
    (∀ vs : List Word, s.rod.out = [{ type := 1, frames := [vs] }] → noTicket → noStrata → noEvent →
      s.line.statusDue = none → fill < 64 →
      exec .recordAdmission s = .next { s with
        line := lineAfterEntry 1 [vs] s.line
        rod := { s.rod with out := [] } }) ∧
    (∀ frames, noRod → s.bill.outBuffer = some { type := 3, frames := frames } → noStrata → noEvent →
      s.line.statusDue = none → fill + frames.length ≤ 64 →
      exec .recordAdmission s = .next { s with
        line := lineAfterEntry 3 frames s.line
        bill := { s.bill with outBuffer := none } }) ∧
    (∀ r, noRod → noTicket → s.lag.hold = [r] → (∀ e ∈ s.lag.queue.head?, e.stage = .waiting) → noEvent →
      s.line.statusDue = none → fill + 3 ≤ 64 →
      let done := s.lag.flushWatch = true ∧ s.lag.queue = [];
      exec .recordAdmission s = .next { s with
        line := lineAfterEntry 2 (strataRecord r unlaggedPart).frames s.line
        lag := { s.lag with hold := [], flushWatch := if done then false else s.lag.flushWatch }
        bill := { s.bill with ending := if done then s.bill.ending.map lagDone else s.bill.ending } }) ∧
    (∀ e rest, noRod → noTicket → s.lag.hold = [] → s.lag.queue = e :: rest → e.stage ≠ .waiting →
      (∀ x ∈ rest.head?, x.stage = .waiting) → noEvent → s.line.statusDue = none → fill + 3 ≤ 64 →
      let done := s.lag.flushWatch = true ∧ rest = [];
      exec .recordAdmission s = .next { s with
        line := lineAfterEntry 2 (strataRecord e.strata (lagPartOf e.stage)).frames s.line
        lag := { s.lag with queue := rest, flushWatch := if done then false else s.lag.flushWatch }
        bill := { s.bill with ending := if done then s.bill.ending.map lagDone else s.bill.ending } }) ∧
    (∀ src : Source, noRod → noTicket → noStrata → s.event.accounts[src].pending = true →
      (∀ other : Source, other ≠ src → s.event.accounts[other].pending = false) → s.line.statusDue = none → fill < 64 →
      exec .recordAdmission s = .next { s with
        line := lineAfterEntry 4 [eventFrame src] s.line
        event := { s.event with
          accounts := s.event.accounts.set src { s.event.accounts[src] with pending := false, count := 0 } } }) ∧
    (∀ src other : Source, noRod → noTicket → noStrata → s.event.accounts[src].pending = true →
      (∀ lower : Source, lower < src → s.event.accounts[lower].pending = false) →
      src < other → s.event.accounts[other].pending = true → fill = 63 →
      ∃ t, exec .recordAdmission s = .next t ∧
        t.line.records = s.line.records ++ framesOf 4 s.line.serial [eventFrame src] ∧
        t.event.accounts[other].pending = true ∧ t.event.accounts[srcQueueFull].pending = true ∧
        (src ≠ srcPumpClamp → src ≠ srcQueueFull →
          t.event.accounts[src] = { s.event.accounts[src] with pending := false, count := 0 })) ∧
    (∀ cause, noRod → noTicket → noStrata → noEvent → s.line.statusDue = some cause → fill + 3 ≤ 64 →
      exec .recordAdmission s = .next { s with
        line := { lineAfterEntry 5 (statusRecord s cause).frames s.line with statusDue := none } } ∧
      (lineAfterEntry 5 (statusRecord s cause).frames s.line).highWater = fill + 3 ∧
      (statusFrame0 s cause)[2]? = some (BitVec.ofNat 16 (fill + 3)) ∧
      (statusFrame0 s cause)[3]? = some (BitVec.ofNat 16 s.line.highWater) ∧
      (statusRecord s cause).frames = [statusFrame0 s cause, statusFrame1 s, statusFrame2 s]) ∧
    (∀ r rest, s.rod.out = r :: rest → 64 - fill < r.frames.length → exec .recordAdmission s = .next s) ∧
    (∀ r, noRod → s.bill.outBuffer = some r → 64 - fill < r.frames.length → exec .recordAdmission s = .next s) ∧
    (Settled s → exec .recordAdmission s = .next s)

/-- The completion response takes the empty slot; a full slot keeps it waiting. That the step changes nothing where no
completion response waits is the model's choice (log 3) (R21). -/
def Obligations.CompletionResponseIsPlaced : Prop :=
  ∀ s : State,
    (∀ f, s.line.response = none → s.line.completion = some f →
      exec .completionResponsePlaced s = .next { s with line := { s.line with
        response := some f, completion := none } }) ∧
    (s.line.response ≠ none ∨ s.line.completion = none → exec .completionResponsePlaced s = .next s)

/-- When the timer reaches the status period it restarts and STATUS is due, with cause PERIOD unless it was due already;
that the step changes nothing before that, and without SETTINGS, is the model's choice (log 3). A STATUS request is
answered OK in every job state and makes STATUS due, with cause REQUEST unless it was due already. With no record
waiting and room for it, the STATUS record has entered by the end of the step (log 4); with 62 or 63 frames in the queue
it waits on, and RECORD_QUEUE_FULL has occurred with its type, here with no class for that source (R23, R24, R149). -/
def Obligations.StatusBecomesDue : Prop :=
  ∀ s : State, Settled s →
    (∀ g, settings s = some g → g.statusPeriod * 1000 ≤ s.now - s.line.statusTimerStart →
      ∃ t, exec .statusPeriod s = .next t ∧
        SameButRecords { s with line := { s.line with statusTimerStart := s.now } } t ∧
        StatusMade .period s t) ∧
    (∀ g, settings s = some g → s.now - s.line.statusTimerStart < g.statusPeriod * 1000 →
      exec .statusPeriod s = .next s) ∧
    (settings s = none → exec .statusPeriod s = .next s) ∧
    (∀ (f : Frame) (rest : List Frame), Asks s 19 f rest → f.values = [] →
      ∃ t, exec .status s = .next t ∧ SameButRecords (answered f rest 0 [] s) t ∧
        StatusMade .request s t ∧
        (waiting s = [] → s.line.records.length + 3 ≤ 64 →
          t = { answered f rest 0 [] s with
            line := lineAfterEntry 5 (statusRecord (answered f rest 0 [] s) .request).frames
              (answered f rest 0 [] s).line }) ∧
        (waiting s = [] → 61 < s.line.records.length → s.line.records.length < 64 → routeOf s srcQueueFull = none →
          t.line.statusDue = some .request ∧ Occurred srcQueueFull 5 true s t))

/-! ## Channels -/

/-- A bound LIVE channel whose age has passed its stale time becomes STALE and keeps its value; CH_FAULT occurs with
cause STALE and its condition is true; no other channel changes (R28, R31). -/
def Obligations.ChannelGoesStale : Prop :=
  ∀ (s : State) (c : Ch), Settled s → c ≠ 11 → binding s c ≠ none → s.channels[c].state = .live →
    staleTime s c < s.now - s.channels[c].takenAt →
    ∃ t, exec (.channelStale c) s = .next t ∧
      t.channels = s.channels.set c { s.channels[c] with state := .stale } ∧
      Occurred (srcChFault c) 65536 true s t ∧ cond t (srcChFault c) = true ∧
      t.rod = s.rod ∧ t.bill = s.bill ∧ t.lag = s.lag ∧ t.gov = s.gov ∧ t.tables = s.tables

/-- A bound STALE channel whose age has reached 4 × its stale time is LOST: value, mark and baseline are gone, its
limits are ARMED with their conditions false, CH_FAULT occurs with cause LOST (R28, R31, R38). -/
def Obligations.ChannelIsLost : Prop :=
  ∀ (s : State) (c : Ch), Settled s → c ≠ 11 → binding s c ≠ none → s.channels[c].state = .stale →
    4 * staleTime s c ≤ s.now - s.channels[c].takenAt →
    ∃ t, exec (.channelLost c) s = .next t ∧
      t.channels = s.channels.set c { s.channels[c] with
        state := .lost, value := none, mark := false, baseline := none, limit1 := .armed, limit2 := .armed } ∧
      Occurred (srcChFault c) 131072 true s t ∧ cond t (srcChFault c) = true ∧
      (∀ l src, limitSource c l = some src → cond t src = false) ∧
      t.rod = s.rod ∧ t.bill = s.bill ∧ t.lag = s.lag ∧ t.gov = s.gov ∧ t.tables = s.tables

/-- A bound ABSENT settled channel whose age has reached 4 × its stale time is ABSENT unsettled without a baseline, and
nothing else changes; that no state notice goes out is the model's choice (log 17) (R28). -/
def Obligations.SettledChannelExpires : Prop :=
  ∀ (s : State) (c : Ch), c ≠ 11 → binding s c ≠ none → s.channels[c].state = .absentSettled →
    4 * staleTime s c ≤ s.now - s.channels[c].takenAt →
    exec (.settleExpiry c) s = .next { s with
      channels := s.channels.set c { s.channels[c] with state := .absentUnsettled, baseline := none } }

/-- A raw reading within its calibration points is brought to the nearest integer of the straight line, an exact half
away from the value of raw_lo (R34). -/
def Obligations.CalibrationRoundsToNearest : Prop :=
  ∀ (r lo hi : Nat) (engLow engHigh : Int), lo < hi → lo ≤ r → r ≤ hi →
    let num := ((r : Int) - lo) * (engHigh - engLow);
    let den : Int := (hi : Int) - lo;
    let q := calibrated r lo hi engLow engHigh - engLow;
    2 * |num - q * den| ≤ den ∧ (2 * |num - q * den| = den → |num| < |q * den|)

/-- An enabled limit after an accepted value: it trips above or below its threshold, with its occurrence and the value
as detail, re-arms past the hysteresis, and from REARMING is ARMED by a value back inside; its condition is that it is
TRIPPED, and no other channel changes (R36, R37). -/
def Obligations.LimitFollowsValue : Prop :=
  ∀ (s : State) (c : Ch) (v : Nat) (l : LimitNo) (src : Source), limitSource c l = some src →
    let pages := activePages s tChannel;
    let before := s.channels[c].limit l;
    let threshold : Int := limitThresholdIn pages c l;
    let hysteresis : Int := limitHysteresisIn pages c l;
    let t := evalLimit c v l s;
    let after := t.channels[c].limit l;
    (limitControlIn pages c l = .above →
      (before = .armed → after = (if threshold < v then .tripped else .armed)) ∧
      (before = .tripped → after = (if v ≤ threshold - hysteresis then .armed else .tripped)) ∧
      (before = .rearming → after = (if v ≤ threshold then .armed else .rearming))) ∧
    (limitControlIn pages c l = .below →
      (before = .armed → after = (if v < threshold then .tripped else .armed)) ∧
      (before = .tripped → after = (if threshold + hysteresis ≤ v then .armed else .tripped)) ∧
      (before = .rearming → after = (if threshold ≤ v then .armed else .rearming))) ∧
    (limitControlIn pages c l = .off → after = before) ∧
    cond t src = (after == .tripped) ∧
    (after = .tripped → before ≠ .tripped → Occurred src (BitVec.ofNat 32 v) true s t) ∧
    (∀ d : Ch, d ≠ c → t.channels[d] = s.channels[d]) ∧ t.channels[c].value = s.channels[c].value ∧
    t.channels[c].state = s.channels[c].state ∧ t.rod = s.rod ∧ t.depth = s.depth ∧ t.circ = s.circ ∧ t.lag = s.lag ∧
    t.bill = s.bill ∧ t.gov = s.gov

/-! ## Pumped volume, depth and weights -/

/-- An accepted stroke sample with SETTINGS active: the pump's rate is floor(delta × 60,000 / Δt), the other's stays, V_p
grows by delta × displacement × efficiency up to 2^64 − 1, and of a lag queue that waits in order of arrival volume
exactly the entries reached become DUE, with the job time, return flow, density and losses of the moment
(R88, R89, R90, R120). -/
def Obligations.PumpedVolumeBringsArrivals : Prop :=
  ∀ (s : State) (d dt : Nat) (g : Settings), settings s = some g → 0 < d →
    (let t := strokeSample .one d dt s;
      t.circ.rate1 = some (d * 60000 / max 1 dt) ∧ t.circ.rate2 = s.circ.rate2 ∧
        t.circ.pumped = min 18446744073709551615 (s.circ.pumped + d * (g.displacement1 * g.efficiency1))) ∧
    (let t := strokeSample .two d dt s;
      t.circ.rate2 = some (d * 60000 / max 1 dt) ∧ t.circ.rate1 = s.circ.rate1 ∧
        t.circ.pumped = min 18446744073709551615 (s.circ.pumped + d * (g.displacement2 * g.efficiency2))) ∧
    (∀ p : Pump, (∀ e ∈ s.lag.queue, e.stage = .waiting) →
      s.lag.queue.Pairwise (fun a b => a.arrival ≤ b.arrival) →
      let t := strokeSample p d dt s;
      t.lag.queue = s.lag.queue.map (fun e => if e.arrival ≤ t.circ.pumped then
        { e with stage := .due s.depth.jobClock (held s 3) (held s 12) (cond s srcPitLoss) } else e) ∧
      t.lag.hold = s.lag.hold ∧ t.rod = s.rod ∧ t.bill = s.bill ∧ t.gov = s.gov ∧ t.channels = s.channels)

/-- With SETTINGS active: in FOLLOWING with BLOCK_HEIGHT held, T is the block height plus the offset and, the string being
VALID, the raw bit depth is L − T within 0 and 2,000,000 and the used bit depth the smaller of it and the hole depth.
W_b is floor(floor(S_w / 1,000) × (7,850 − ρ) / 7,850), S is HOOK_LOAD × 10 less the block weight, WOB_N is W_b − S or
0, and OVERPULL is true while S − W_b exceeds its limit (R45, R48, R53, R54, R55). -/
def Obligations.DepthAndWeightsFollow : Prop :=
  ∀ (s : State) (g : Settings), settings s = some g →
    (∀ v, s.depth.topMode = .following → held s 7 = some v →
      let t := recomputeTop s;
      t.depth.top = some (v + g.topDriveOffset) ∧
        (s.rod.valid = false → t.depth.rawBit = none ∧ t.depth.usedBit = none) ∧
        (s.rod.valid = true →
          let x : Int := s.rod.length - (v + g.topDriveOffset);
          let raw : Nat := if x < 0 then 0 else if 2000000 < x then 2000000 else x.toNat;
          t.depth.rawBit = some raw ∧ t.depth.usedBit = some (min raw s.depth.hole))) ∧
    (∀ h, held s 6 = some h →
      let t := recomputeWeight s;
      let density := (held s 12).getD 1000;
      let buoyed := s.rod.weight / 1000 * (7850 - density) / 7850;
      let load : Int := (h : Int) * 10 - g.blockWeight;
      t.depth.buoyed = buoyed ∧ t.depth.suspended = some load ∧
        t.depth.wobN = (if s.rod.valid then some ((buoyed : Int) - load).toNat else none) ∧
        cond t srcOverpull = (s.rod.valid && decide ((g.overpullLimit : Int) < load - buoyed)) ∧
        t.rod = s.rod ∧ t.circ = s.circ ∧ t.lag = s.lag ∧ t.bill = s.bill ∧ t.depth.hole = s.depth.hole)

/-! ## The second timer and the dwell -/

/-- A whole second: the timer steps; a running job clock below its largest value counts one and an open ticket accrues
one second to the activity state in force, and to no other line; with the clock stopped no second is handed
(R62, R63, R157). -/
def Obligations.SecondStepCounts : Prop :=
  ∀ s : State, Settled s → 1000 ≤ s.now - s.depth.secondStart →
    ∃ t, exec .secondStep s = .next t ∧ t.depth.secondStart = s.depth.secondStart + 1000 ∧
      t.rod = s.rod ∧ t.channels = s.channels ∧ t.lag = s.lag ∧ t.tables = s.tables ∧ t.interval = s.interval ∧
      t.circ = s.circ ∧ t.gov = s.gov ∧
      (s.depth.clockRuns = true → s.depth.jobClock < 4294967295 →
        t.depth.jobClock = s.depth.jobClock + 1 ∧
          (s.bill.ticketOpen = true → ∀ key : Fin 44, (t.bill.lines[key]).quantity =
            if key.val = 33 + s.depth.activity.num then min 4294967295 ((s.bill.lines[key]).quantity + 1)
            else (s.bill.lines[key]).quantity) ∧
          (s.bill.ticketOpen = false → t.bill = s.bill)) ∧
      (s.depth.clockRuns = false → t.depth.jobClock = s.depth.jobClock ∧ t.bill = s.bill)

/-- When the dwell timer has run the dwell time the state becomes the held candidate and the timer stops (R59). -/
def Obligations.DwellExpiryTakesCandidate : Prop :=
  ∀ (s : State) (start : Nat) (g : Settings), Settled s → s.depth.dwellStart = some start → settings s = some g →
    g.dwellTime * 1000 ≤ s.now - start →
    ∃ t, exec .dwellExpiry s = .next t ∧
      SameButRecords { s with depth := { s.depth with activity := s.depth.candidate, dwellStart := none } } t

/-! ## MODE -/

/-- A MODE request for BYPASS from OBSERVE or GOVERN, in any job state: the output is asserted, FIFOs and injections are
emptied, every channel is ABSENT unsettled with its value, mark and baseline gone, both stroke rates are absent, the
activity is UNTRACKED, the governor holds nothing; the records in the queue, the other requests, the pit balance and the
rod, lag, interval and billing units are kept, and STATUS is due with cause MODE or has entered (that this cause comes
before a class's is the model's choice, log 9) (R14, R15, R24, R30, R89, R107, R191). -/
def Obligations.ModeBypassIsEntered : Prop :=
  ∀ (s : State) (f : Frame) (rest : List Frame), Settled s → Asks s 1 f rest → f.values = [0] → s.line.mode ≠ .bypass →
    ∃ t, exec .mode s = .next t ∧ Answer t f rest 0 [0] ∧
      t.line.mode = .bypass ∧ t.line.bypassOut = true ∧ t.line.forward = [] ∧ t.line.downstream = [] ∧
      t.line.injections = [] ∧ s.line.records <+: t.line.records ∧ StatusMade .mode s t ∧
      (∀ c : Ch, t.channels[c].state = .absentUnsettled ∧ t.channels[c].value = none ∧
        t.channels[c].mark = false ∧ t.channels[c].baseline = none) ∧
      t.depth.activity = .untracked ∧ t.depth.dwellStart = none ∧
      t.gov.setpoint1 = none ∧ t.gov.setpoint2 = none ∧ t.gov.holder = .none ∧ t.gov.inZone = false ∧
      t.gov.moving = false ∧ t.circ = { s.circ with rate1 := none, rate2 := none, flowIn := t.circ.flowIn } ∧
      t.interval = s.interval ∧ t.lag = s.lag ∧ t.bill = s.bill ∧ t.rod = s.rod ∧ t.tables = s.tables

/-- A MODE request for OBSERVE or GOVERN, the job not ENDING: the mode in force is answered OK and nothing changes; one
whose requirements hold is entered, the output released but in reset, and STATUS is due with cause MODE or has entered
(that this cause comes before a class's is the model's choice, log 9); otherwise NOT_READY names the first requirement
unmet. A value above 2 is BAD_VALUE; while ENDING the answer is BUSY (R13, R14, R16, R24). -/
def Obligations.ModeRequestIsAnswered : Prop :=
  ∀ (s : State) (f : Frame) (rest : List Frame) (w : Word), Asks s 1 f rest → f.values = [w] →
    (2 < w.toNat → exec .mode s = .next (answered f rest 7 [w] s)) ∧
    (w = 0 → s.line.mode = .bypass → exec .mode s = .next (answered f rest 0 [w] s)) ∧
    (s.bill.job = .ending → w = 1 ∨ w = 2 → exec .mode s = .next (answered f rest 3 [w] s)) ∧
    (s.bill.job ≠ .ending → w = 1 → s.line.mode = .observe → exec .mode s = .next (answered f rest 0 [w] s)) ∧
    (s.bill.job ≠ .ending → w = 2 → s.line.mode = .govern → exec .mode s = .next (answered f rest 0 [w] s)) ∧
    (s.bill.job ≠ .ending → w = 1 → s.line.mode ≠ .observe →
      (isActive s tChannel = false → exec .mode s = .next (answered f rest 2 [1] s)) ∧
      (isActive s tChannel = true → isActive s tSettings = false →
        exec .mode s = .next (answered f rest 2 [2] s)) ∧
      (Settled s → isActive s tChannel = true → isActive s tSettings = true →
        ∃ t, exec .mode s = .next t ∧ Answer t f rest 0 [w] ∧ t.line.mode = .observe ∧ StatusMade .mode s t ∧
          t.line.bypassOut = inReset s ∧
          t.line.forward = s.line.forward ∧ t.line.downstream = s.line.downstream ∧ t.channels = s.channels ∧
          t.rod = s.rod ∧ t.bill = s.bill ∧ t.lag = s.lag ∧ t.gov = s.gov ∧ t.tables = s.tables)) ∧
    (s.bill.job ≠ .ending → w = 2 → s.line.mode ≠ .govern →
      let needs := [isActive s tChannel, isActive s tSettings, isActive s tRoute, isActive s tMudprog,
        isActive s tRodclass, isActive s tProfile, s.rod.valid];
      (∀ i, needs.idxOf? false = some i → exec .mode s = .next (answered f rest 2 [BitVec.ofNat 16 (i + 1)] s)) ∧
      (Settled s → (∀ b ∈ needs, b = true) →
        ∃ t, exec .mode s = .next t ∧ Answer t f rest 0 [w] ∧ t.line.mode = .govern ∧ StatusMade .mode s t ∧
          t.line.bypassOut = inReset s ∧
          t.line.forward = s.line.forward ∧ t.line.downstream = s.line.downstream ∧ t.channels = s.channels ∧
          t.rod = s.rod ∧ t.bill = s.bill ∧ t.lag = s.lag ∧ t.gov = s.gov ∧ t.tables = s.tables))

/-! ## Tables -/

/-- A LOAD: its checks in their order, and the page written with the words sent, zeros after them, its mask bit set,
the active copy untouched; BUSY while ENDING (R149, R194). -/
def Obligations.LoadWritesPendingPage : Prop :=
  ∀ (s : State) (f : Frame) (rest : List Frame), Asks s 2 f rest → 2 ≤ f.values.length → f.values.length ≤ 14 →
    (s.bill.job = .ending → exec .load s = .next (answered f rest 3 (echo f) s)) ∧
    (s.bill.job ≠ .ending →
      (8 < value f 0 → exec .load s = .next (answered f rest 5 (echo f) s)) ∧
      (∀ t : TableNo, value f 0 = t.val →
        (s.tables[t].pending.length ≤ value f 1 → exec .load s = .next (answered f rest 6 (echo f) s)) ∧
        (value f 1 < s.tables[t].pending.length → t = 7 → s.bill.deferred = true →
          exec .load s = .next (answered f rest 3 (echo f) s)) ∧
        (value f 1 < s.tables[t].pending.length → ¬(t = 7 ∧ s.bill.deferred = true) →
          ∃ page : Page, (∀ i : Fin 12, page[i] = f.values.getD (i + 2) 0) ∧
            exec .load s = .next (answered f rest 0 (echo f) { s with
              tables := s.tables.set t { s.tables[t] with
                pending := s.tables[t].pending.set (value f 1) page
                mask := s.tables[t].mask.set (value f 1) true } }))))

/-- An ACTIVATE: no such table, TARIFF already deferred, a page not loaded, a failed check, in this order, change nothing;
a TARIFF that passes under an OPEN job sets the deferred-tariff flag only. Otherwise the pending copy is the active copy
and the mask is clear; PROFILE, CLASSIFY, FATIGUE, and TARIFF with no job, change nothing else at the activation
(R83, R113, R129, R153, R164, R195). -/
def Obligations.ActivateTakesEffect : Prop :=
  ∀ (s : State) (f : Frame) (rest : List Frame) (w : Word), Asks s 3 f rest → f.values = [w] → s.bill.job ≠ .ending →
    (8 < w.toNat → exec .activate s = .next (answered f rest 5 [w] s)) ∧
    (∀ t : TableNo, w.toNat = t.val →
      (t = 7 → s.bill.deferred = true → exec .activate s = .next (answered f rest 1 [w] s)) ∧
      (¬(t = 7 ∧ s.bill.deferred = true) →
        (∀ p, s.tables[t].active = none → p < s.tables[t].pending.length → s.tables[t].mask.getD p false = false →
          (∀ q < p, s.tables[t].mask.getD q false = true) →
          exec .activate s = .next (answered f rest 8 [BitVec.ofNat 16 p] s)) ∧
        ((s.tables[t].active ≠ none ∨ ∀ p < s.tables[t].pending.length, s.tables[t].mask.getD p false = true) →
          (∀ c p, checkTable t s.tables[t].pending = some (c, p) →
            exec .activate s = .next (answered f rest c.num [BitVec.ofNat 16 p] s)) ∧
          (checkTable t s.tables[t].pending = none → t = 7 → s.bill.job = .opened →
            exec .activate s = .next (answered f rest 1 [w] { s with bill := { s.bill with deferred := true } })) ∧
          (checkTable t s.tables[t].pending = none → ¬(t = 7 ∧ s.bill.job = .opened) →
            let tables := s.tables.set t { s.tables[t] with
              active := some s.tables[t].pending, mask := List.replicate s.tables[t].pending.length false };
            (∃ u, exec .activate s = .next u ∧ Answer u f rest 0 [w] ∧ u.tables = tables ∧
              u.bill.job = s.bill.job ∧ u.rod.string = s.rod.string ∧ u.rod.table = s.rod.table ∧
              s.line.records <+: u.line.records) ∧
            (t = 2 ∨ t = 5 ∨ t = 6 ∨ t = 7 →
              exec .activate s = .next (answered f rest 0 [w] { s with tables := tables }))))))

/-- A READ_TABLE: its checks in their order, and the page of the copy asked for with its head and mask bit, zeros with
NOT_READY for an invalid ACTIVE copy; nothing changes (R197). -/
def Obligations.ReadTableGivesPage : Prop :=
  ∀ (s : State) (f : Frame) (rest : List Frame), Asks s 4 f rest → f.values.length = 3 →
    (s.bill.job = .ending → exec .readTable s = .next (answered f rest 3 (echo f) s)) ∧
    (s.bill.job ≠ .ending →
      (8 < value f 0 → exec .readTable s = .next (answered f rest 5 (echo f) s)) ∧
      (∀ t : TableNo, value f 0 = t.val →
        (s.tables[t].pending.length ≤ value f 1 → exec .readTable s = .next (answered f rest 6 (echo f) s)) ∧
        (value f 1 < s.tables[t].pending.length →
          let head := [BitVec.ofNat 16 (t.val * 256 + value f 1),
            BitVec.ofNat 16 (value f 2 * 256 + if s.tables[t].mask.getD (value f 1) false then 1 else 0)];
          (1 < value f 2 → exec .readTable s = .next (answered f rest 7 (echo f) s)) ∧
          (∀ page, value f 2 = 1 → s.tables[t].pending[value f 1]? = some page →
            exec .readTable s = .next (answered f rest 0 (head ++ page.toList) s)) ∧
          (∀ pages page, value f 2 = 0 → s.tables[t].active = some pages → pages[value f 1]? = some page →
            exec .readTable s = .next (answered f rest 0 (head ++ page.toList) s)) ∧
          (value f 2 = 0 → s.tables[t].active = none →
            exec .readTable s = .next (answered f rest 2 (head ++ List.replicate 12 0) s)))))

/-! ## Rods and the string -/

/-- A RACK_ADD: its checks in their order, and the record created in state RACK (R67). -/
def Obligations.RackAddCreatesRod : Prop :=
  ∀ (s : State) (f : Frame) (rest : List Frame), Asks s 5 f rest → f.values.length = 6 → s.bill.job ≠ .ending →
    (value f 0 = 0 → exec .rackAdd s = .next (answered f rest 7 [0] s)) ∧
    (value f 0 ≠ 0 → 15 < value f 1 → exec .rackAdd s = .next (answered f rest 7 [1] s)) ∧
    (value f 0 ≠ 0 → value f 1 ≤ 15 → (value f 2 < 300 ∨ 12000 < value f 2) →
      exec .rackAdd s = .next (answered f rest 7 [2] s)) ∧
    (value f 0 ≠ 0 → value f 1 ≤ 15 → 300 ≤ value f 2 → value f 2 ≤ 12000 → 1 < value f 5 →
      exec .rackAdd s = .next (answered f rest 7 [5] s)) ∧
    (value f 0 ≠ 0 → value f 1 ≤ 15 → 300 ≤ value f 2 → value f 2 ≤ 12000 → value f 5 ≤ 1 →
      (∀ r, s.rod.table.find? (fun r => r.tag == value f 0) = some r →
        exec .rackAdd s = .next (answered f rest 9 [BitVec.ofNat 16
          (match r.place with | .rack => 0 | .string => 1 | .retired => 2 | .quarantine => 3)] s)) ∧
      ((∀ r ∈ s.rod.table, r.tag ≠ value f 0) →
        (256 ≤ s.rod.table.length → exec .rackAdd s = .next (answered f rest 12 (echo f) s)) ∧
        (s.rod.table.length < 256 → exec .rackAdd s = .next (answered f rest 0 (echo f) { s with
          rod := { s.rod with table := s.rod.table ++
            [{ tag := value f 0, cls := value f 1, length := value f 2, place := .rack,
               fatigue := (value f 3 * 65536 + value f 4) * 60000000, entry := none,
               inspect := value f 5 == 1, runs := 0 }] } }))))

/-- A RACK_REMOVE: NOT_FOUND, IN_STRING with the record kept, or the record deleted and, where it was the candidate,
the candidate cleared (R68). -/
def Obligations.RackRemoveDeletesRod : Prop :=
  ∀ (s : State) (f : Frame) (rest : List Frame) (w : Word), Asks s 6 f rest → f.values = [w] → s.bill.job ≠ .ending →
    ((∀ r ∈ s.rod.table, r.tag ≠ w.toNat) → exec .rackRemove s = .next (answered f rest 10 [w] s)) ∧
    (∀ r, s.rod.table.find? (fun r => r.tag == w.toNat) = some r →
      (r.place = .string → exec .rackRemove s = .next (answered f rest 11 [w] s)) ∧
      (r.place ≠ .string → exec .rackRemove s = .next (answered f rest 0 [w] { s with
        rod := { s.rod with
          table := s.rod.table.filter fun r => r.tag != w.toNat
          candidate := if s.rod.candidate = some w.toNat then none else s.rod.candidate } })))

/-- A ROD_READ: NOT_FOUND, or the rod's eleven values, the fatigue live for a rod in STRING; nothing changes (R69). -/
def Obligations.RodReadGivesRecord : Prop :=
  ∀ (s : State) (f : Frame) (rest : List Frame) (w : Word), Asks s 7 f rest → f.values = [w] → s.bill.job ≠ .ending →
    ((∀ r ∈ s.rod.table, r.tag ≠ w.toNat) → exec .rodRead s = .next (answered f rest 10 [w] s)) ∧
    (∀ r, s.rod.table.find? (fun r => r.tag == w.toNat) = some r →
      let live := if r.place = .string then r.fatigue + (s.rod.fatigueClock - r.entry.getD 0) else r.fatigue;
      let krevs := min 4294967294 (live / 60000000);
      exec .rodRead s = .next (answered f rest 0
        [BitVec.ofNat 16 r.tag, BitVec.ofNat 16 r.cls,
          if isActive s tRodclass then BitVec.ofNat 16 (rodClass s r.cls).kind else 65535,
          BitVec.ofNat 16 r.length,
          BitVec.ofNat 16 (match r.place with | .rack => 0 | .string => 1 | .retired => 2 | .quarantine => 3),
          BitVec.ofNat 16 (krevs / 65536), BitVec.ofNat 16 krevs,
          if r.inspect then 1 else 0, BitVec.ofNat 16 r.runs,
          (if r.place = .string then
            match s.rod.string.idxOf? r.tag with
            | some i => BitVec.ofNat 16 i
            | none => 65535
          else 65535),
          if s.rod.candidate = some r.tag then 1 else 0] s))

/-- A STRING_LOAD: page number, COUNT and header values checked in that order; a header or a tag page is written and its
flag set (R72). -/
def Obligations.StringLoadWritesBuffer : Prop :=
  ∀ (s : State) (f : Frame) (rest : List Frame), Asks s 8 f rest → (f.values.length = 5 ∨ f.values.length = 13) →
    s.bill.job ≠ .ending →
    (21 < value f 0 → exec .stringLoad s = .next (answered f rest 6 (echo f) s)) ∧
    (value f 0 ≤ 21 → f.values.length ≠ (if value f 0 = 0 then 5 else 13) →
      exec .stringLoad s = .next (answered f rest 4 (echo f) s)) ∧
    (value f 0 = 0 → f.values.length = 5 → (250 < value f 1 ∨ 1 < value f 2) →
      exec .stringLoad s = .next (answered f rest 7 (echo f) s)) ∧
    (value f 0 = 0 → f.values.length = 5 → value f 1 ≤ 250 → value f 2 ≤ 1 →
      exec .stringLoad s = .next (answered f rest 0 (echo f) { s with
        rod := { s.rod with
          loadHeader := some ⟨value f 1, if value f 2 = 1 then
            some ((f.values.getD 3 0 ++ f.values.getD 4 0 : BitVec 32).toInt) else none⟩ } })) ∧
    (1 ≤ value f 0 → value f 0 ≤ 21 → f.values.length = 13 →
      ∃ t, exec .stringLoad s = .next (answered f rest 0 (echo f) { s with rod := t }) ∧
        t = { s.rod with loadPages := t.loadPages } ∧
        ∀ p : Fin 21, t.loadPages[p] =
          if p.val + 1 = value f 0 then some ((f.values.drop 1).map (·.toNat)) else s.rod.loadPages[p])

/-- A STRING_COMMIT is refused in GOVERN, without RODCLASS, and where the header or a tag page that holds a slot is not
loaded, and changes nothing; one that passes every check makes the load the string: VALID, STRING_INVALID false, its
rods in STRING with the fatigue clock as entry mark, no candidate, the buffer empty; OK with the number of rods (R73). -/
def Obligations.StringCommitReplacesString : Prop :=
  ∀ (s : State) (f : Frame) (rest : List Frame), Settled s → Asks s 9 f rest → f.values = [] → s.bill.job ≠ .ending →
    (s.line.mode = .govern → exec .stringCommit s = .next (answered f rest 3 [] s)) ∧
    (s.line.mode ≠ .govern → isActive s tRodclass = false →
      exec .stringCommit s = .next (answered f rest 2 [] s)) ∧
    (s.line.mode ≠ .govern → isActive s tRodclass = true →
      (s.rod.loadHeader = none → exec .stringCommit s = .next (answered f rest 8 [0] s)) ∧
      (∀ (h : LoadHeader) (p : Fin 21), s.rod.loadHeader = some h → 12 * p.val < h.count →
        s.rod.loadPages[p] = none → (∀ q : Fin 21, q < p → s.rod.loadPages[q] ≠ none) →
        exec .stringCommit s = .next (answered f rest 8 [BitVec.ofNat 16 (p.val + 1)] s)) ∧
      (∀ h : LoadHeader, s.rod.loadHeader = some h → h.count ≤ 250 →
        (∀ p : Fin 21, 12 * p.val < h.count → s.rod.loadPages[p] ≠ none) → (loadTags s h.count).Nodup →
        (∀ i < h.count, loadSlot s i ≠ 0 ∧ ∃ r, findRod s (loadSlot s i) = some r ∧ returnPlace s r = .rack ∧
          ((rodClass s r.cls).kind ≠ 0 ∨ i = 0)) →
        ∃ t, exec .stringCommit s = .next t ∧ Answer t f rest 0 [BitVec.ofNat 16 h.count] ∧
          t.rod.string = loadTags s h.count ∧ t.rod.valid = true ∧ cond t srcStringInvalid = false ∧
          t.rod.candidate = none ∧ t.rod.loadHeader = none ∧ (∀ p : Fin 21, t.rod.loadPages[p] = none) ∧
          (∀ tag ∈ loadTags s h.count, ∃ r ∈ t.rod.table, r.tag = tag ∧ r.place = .string ∧
            r.entry = some s.rod.fatigueClock) ∧
          t.rod.fatigueClock = s.rod.fatigueClock ∧ t.rod.out = s.rod.out ∧ t.channels = s.channels ∧
          t.tables = s.tables ∧ t.gov = s.gov ∧ t.line.mode = s.line.mode))

/-- A break-out completion on a string whose top rod has a record: the rod leaves the string, its accumulator takes
F less its entry mark, and it goes to RETIRED, QUARANTINE or RACK by its threshold and inspect flag. Its ROD record enters
the record queue where nothing waits in the out-queue and a place is free; with the queue full it joins the out-queue, and
RECORD_QUEUE_FULL occurs where it is the first there; with 16 there it is lost, the 16 are kept and RECORD_QUEUE_FULL
occurs, its detail 257 where the waits of EVENT and STATUS have been judged before. That the ROD record does not wait for
the end of the step is the model's choice (log 4) (R22, R23, R80, R81, R87). -/
def Obligations.BreakoutPopsTopRod : Prop :=
  ∀ (s : State) (below : List Nat) (tag : Nat) (r : Rod), s.rod.string = below ++ [tag] → findRod s tag = some r →
    let banked := min 9223372036854775807 (r.fatigue + (s.rod.fatigueClock - r.entry.getD 0));
    let t := breakout s;
    t.rod.string = below ∧ t.rod.candidate = none ∧ t.rod.valid = s.rod.valid ∧
      t.rod.length = s.rod.length - r.length ∧
      findRod t tag = some { r with
        fatigue := banked
        place := if (rodClass s r.cls).threshold * 60000000 ≤ banked then .retired
          else if r.inspect then .quarantine else .rack
        entry := none } ∧
      (∀ n, n ≠ tag → findRod t n = findRod s n) ∧
      (s.rod.out = [] → s.line.records.length < 64 →
        t.rod.out = [] ∧ ∃ words, t.line.records = s.line.records ++ framesOf 1 s.line.serial [words]) ∧
      (s.rod.out.length < 16 → 64 ≤ s.line.records.length → (∀ x ∈ s.rod.out.head?, x.frames ≠ []) →
        t.line.records = s.line.records ∧
          (∃ x : RecordBody, x.type = 1 ∧ x.frames.length = 1 ∧ t.rod.out = s.rod.out ++ [x]) ∧
          (s.rod.out = [] → .rod ∉ s.line.judged → Stands srcQueueFull true s t)) ∧
      (16 ≤ s.rod.out.length → t.rod.out = s.rod.out ∧ Stands srcQueueFull true s t ∧
        (.event ∈ s.line.judged → .status ∈ s.line.judged → t.event.accounts[srcQueueFull].detail = 257))

/-- A make-up completion with a candidate and a string of fewer than 250 rods puts it on top with entry mark F and one
more run; without a candidate nothing is pushed and the string is INVALID, and UNTRACKED_CONNECTION occurs with cause 1
where the string holds fewer than 250 rods (R77, R78, R79). -/
def Obligations.MakeupPushesCandidate : Prop :=
  ∀ (s : State) (torque : Nat),
    (∀ (tag : Nat) (r : Rod), s.rod.candidate = some tag → findRod s tag = some r → s.rod.string.length < 250 →
      let t := makeup torque s;
      t.rod.string = s.rod.string ++ [tag] ∧ t.rod.candidate = none ∧ t.rod.valid = s.rod.valid ∧
        t.rod.length = s.rod.length + r.length ∧
        findRod t tag = some { r with
          place := .string
          entry := some s.rod.fatigueClock
          runs := min 65535 (r.runs + 1)
          inspect := r.inspect || !(decide ((rodClass s r.cls).torqueMin ≤ torque) &&
            decide (torque ≤ (rodClass s r.cls).torqueMax)) }) ∧
    (s.rod.candidate = none →
      let t := makeup torque s;
      t.rod.string = s.rod.string ∧ t.rod.table = s.rod.table ∧ t.rod.valid = false ∧
        cond t srcStringInvalid = true ∧
        (s.rod.string.length < 250 → Occurred srcUntracked (BitVec.ofNat 32 (65536 + torque)) true s t))

/-! ## Jobs -/

/-- A JOB_START is refused with a job OPEN, with a value out of range (the first offending one named; of a field in two
values the first is named, the model's choice, log 32), and without TARIFF, in this order where several apply (the model's
choice, log 37), and changes nothing. An accepted one opens
the job, its first ticket with empty lines and its first interval at the start hole depth; the clock runs from 0 and the
second timer restarts; the rods, the tables, V_p, the stroke rates, the channels, the lag unit and the governor are kept
(R49, R62, R131, R150). -/
def Obligations.JobStartOpensJob : Prop :=
  ∀ (s : State) (f : Frame) (rest : List Frame), Settled s → Asks s 10 f rest → f.values.length = 6 → s.bill.job ≠ .ending →
    let hole := value f 1 * 65536 + value f 2;
    let number := value f 4 * 65536 + value f 5;
    (s.bill.job = .opened → exec .jobStart s = .next (answered f rest 14 (echo f) s)) ∧
    (s.bill.job = .noJob →
      (value f 0 = 0 → exec .jobStart s = .next (answered f rest 7 [0] s)) ∧
      (value f 0 ≠ 0 → 2000000 < hole → exec .jobStart s = .next (answered f rest 7 [1] s)) ∧
      (value f 0 ≠ 0 → hole ≤ 2000000 → value f 3 = 0 → exec .jobStart s = .next (answered f rest 7 [3] s)) ∧
      (value f 0 ≠ 0 → hole ≤ 2000000 → value f 3 ≠ 0 → number = 0 →
        exec .jobStart s = .next (answered f rest 7 [4] s)) ∧
      (value f 0 ≠ 0 → hole ≤ 2000000 → value f 3 ≠ 0 → number ≠ 0 → isActive s tTariff = false →
        exec .jobStart s = .next (answered f rest 2 (echo f) s)) ∧
      (value f 0 ≠ 0 → hole ≤ 2000000 → value f 3 ≠ 0 → number ≠ 0 → isActive s tTariff = true →
        ∃ t, exec .jobStart s = .next t ∧ Answer t f rest 0 (echo f) ∧
          t.bill = { s.bill with
            job := .opened, jobNumber := value f 0, startHole := hole, ticketNumber := value f 3, ticketOpen := true,
            openTime := 0, openHole := hole, lastInterval := none,
            lines := Vector.replicate 44 { quantity := 0, amount := 0, carry := 0, saturated := false } } ∧
          t.depth.hole = hole ∧ t.depth.conflict = false ∧ t.depth.jobClock = 0 ∧ t.depth.clockRuns = true ∧
          t.depth.secondStart = s.now ∧ t.interval.counter = number ∧ t.interval.currentClass = 0 ∧
          (∃ o, t.interval.current = some o ∧ o.number = number ∧ o.top = hole ∧ o.openTime = 0 ∧ o.sumT = 0 ∧
            o.sumRot = 0 ∧ o.sumThrust = 0 ∧ o.note = 0) ∧
          t.rod = s.rod ∧ t.tables = s.tables ∧ t.channels = s.channels ∧ t.lag = s.lag ∧ t.gov = s.gov ∧
          t.circ.pumped = s.circ.pumped ∧ t.circ.rate1 = s.circ.rate1 ∧ t.circ.rate2 = s.circ.rate2))

/-- A JOB_END is refused, in this order: no job, a force flag above 1, a ticket still in the out-buffer, rods in the
string without the force flag; a refusal changes nothing. An accepted one is ENDING with no answer yet: the interval is
closed and its metres accrued, the open ticket is in the out-buffer as a TICKET record with its heading, its lines and
FINAL set, or, with no ROD record waiting and room for it, has entered ahead of the other records of the step (the model's
choice, log 4, log 34), every line's quantity and amount are then cleared with carry and saturated flag kept, no ticket is open, no
deferred tariff is left, no lag entry is WAITING, and the ending watch knows the ticket and the final hole depth
(R7, R125, R140, R151, R155, R156, R161, R165). -/
def Obligations.JobEndBeginsEnding : Prop :=
  ∀ (s : State) (f : Frame) (rest : List Frame) (w : Word), Settled s → Asks s 11 f rest → f.values = [w] →
    (s.bill.job = .noJob → exec .jobEnd s = .next (answered f rest 13 [w] s)) ∧
    (s.bill.job = .opened →
      (1 < w.toNat → exec .jobEnd s = .next (answered f rest 7 [w] s)) ∧
      (w.toNat ≤ 1 → s.bill.outBuffer ≠ none → exec .jobEnd s = .next (answered f rest 3 [w] s)) ∧
      (w = 0 → s.bill.outBuffer = none → s.rod.string ≠ [] → exec .jobEnd s = .next (answered f rest 15 [w] s)) ∧
      (w.toNat ≤ 1 → s.bill.outBuffer = none → (s.rod.string = [] ∨ w = 1) →
        ∃ t, exec .jobEnd s = .next t ∧ t.line.requests = rest ∧ t.line.response = none ∧ t.line.completion = none ∧
          t.bill.job = .ending ∧ t.bill.ticketOpen = false ∧ t.bill.deferred = false ∧
          t.interval.current = none ∧
          (let cls := t.interval.currentClass;
            (∃ r, TicketShows r true (cutLines cls s) (cutLast s) cls s ∧
              if s.rod.out = [] ∧ s.line.records.length + r.frames.length ≤ 64 then
                t.bill.outBuffer = none ∧ framesOf 3 s.line.serial r.frames <+: newFrames s t
              else t.bill.outBuffer = some r) ∧
            ∀ key : Fin 44, t.bill.lines[key] = { (cutLines cls s)[key] with quantity := 0, amount := 0 }) ∧
          (∀ e ∈ t.lag.queue, e.stage ≠ .waiting) ∧
          (∃ e, t.bill.ending = some e ∧ e.ticket = s.bill.ticketNumber ∧ e.finalHole = s.depth.hole) ∧
          t.depth = s.depth ∧ t.rod = s.rod ∧ t.circ = s.circ ∧ t.channels = s.channels ∧ t.gov = s.gov))

/-- When the FINAL ticket has entered and the lag unit has sent its completion the job is over: NO_JOB with numbers 0,
lines and interval cleared, the clock stopped with its value held, and the completion response waits with the ticket
and the final hole depth; that the step changes nothing before that is the model's choice (log 3) (R140, R152). -/
def Obligations.JobEndCompletes : Prop :=
  ∀ s : State,
    (∀ e, Settled s → s.bill.job = .ending → s.bill.outBuffer = none → s.bill.ending = some e → e.lagDone = true →
      ∃ t, exec .jobEndCompletion s = .next t ∧
        t.bill = { s.bill with
          job := .noJob, jobNumber := 0, ticketNumber := 0, ending := none,
          lines := Vector.replicate 44 { quantity := 0, amount := 0, carry := 0, saturated := false } } ∧
        t.interval = { current := none, counter := 0, currentClass := 0 } ∧
        t.depth = { s.depth with clockRuns := false } ∧
        t.line.completion = some
          { kind := 5, governed := true, node := 0, tag := 11,
            values := [0, BitVec.ofNat 16 e.ticket, BitVec.ofNat 16 (e.finalHole / 65536),
              BitVec.ofNat 16 e.finalHole] } ∧
        t.line.response = s.line.response ∧ t.line.requests = s.line.requests ∧ t.rod = s.rod ∧ t.lag = s.lag ∧
        t.channels = s.channels ∧ t.tables = s.tables ∧ t.circ.pumped = s.circ.pumped) ∧
    (s.bill.job ≠ .ending ∨ s.bill.outBuffer ≠ none ∨ s.bill.ending = none ∨
        (∃ e, s.bill.ending = some e ∧ e.lagDone = false) →
      exec .jobEndCompletion s = .next s)

/-- A SHIFT_CLOSE: NO_JOB, BUSY while a ticket is in the out-buffer, or the open ticket, with the metres of the interval
that the shift cut closes, goes to the out-buffer as a TICKET record with its heading, its lines and FINAL clear, from
where it enters with no ROD record waiting and room for it, ahead of the other records of the step (the model's choice,
log 4, log 34), and the next ticket opens where it closed, quantity and amount of its lines 0, carry and saturated flag kept
(R7, R139, R155, R156, R161, R162, R163). -/
def Obligations.ShiftCloseOpensNextTicket : Prop :=
  ∀ (s : State) (f : Frame) (rest : List Frame), Settled s → Asks s 12 f rest → f.values = [] →
    (s.bill.job = .noJob → exec .shiftClose s = .next (answered f rest 13 [] s)) ∧
    (s.bill.job = .opened → s.bill.outBuffer ≠ none → exec .shiftClose s = .next (answered f rest 3 [] s)) ∧
    (s.bill.job = .opened → s.bill.outBuffer = none →
      ∃ t, exec .shiftClose s = .next t ∧ Answer t f rest 0 [BitVec.ofNat 16 s.bill.ticketNumber] ∧
        t.bill.job = .opened ∧ t.bill.ticketOpen = s.bill.ticketOpen ∧
        t.bill.ticketNumber = (if s.bill.ticketNumber = 65535 then 1 else s.bill.ticketNumber + 1) ∧
        t.bill.openTime = s.depth.jobClock ∧ t.bill.openHole = s.depth.hole ∧ t.bill.lastInterval = none ∧
        t.bill.deferred = false ∧
        (let cls := t.interval.currentClass;
          (∃ r, TicketShows r false (cutLines cls s) (cutLast s) cls s ∧
              if s.rod.out = [] ∧ s.line.records.length + r.frames.length ≤ 64 then
                t.bill.outBuffer = none ∧ framesOf 3 s.line.serial r.frames <+: newFrames s t
              else t.bill.outBuffer = some r) ∧
          ∀ key : Fin 44, t.bill.lines[key] = { (cutLines cls s)[key] with quantity := 0, amount := 0 }) ∧
        t.depth = s.depth ∧ t.rod = s.rod ∧ t.circ = s.circ ∧ t.channels = s.channels ∧ t.gov = s.gov)

/-- A MARK: NO_JOB, BAD_VALUE above 255; on an interval without length the note is written and values 1–2 are 0; on one
with length the interval closes at the hole depth, its number is answered and the next opens there. Its record has the
specific energy and the class by the latched area and boundaries, and the class is then the current class, or neither,
with INTERVAL_UNCLASSED and the first cause. With a PROFILE the record joins the lag queue with its arrival volume, DUE
where that is reached; without one, and with LAG_OVERFLOW where the queue is full, it goes to the unlagged hold, and is
lost with RECORD_QUEUE_FULL where that is full. A record that may leave, with none ahead of it and room for its three
frames, has entered by the end of the step. The model's choices: when it enters (log 4), that it enters with CAB UP or DOWN
(log 30), and that NO_JOB comes before BAD_VALUE (log 39) (R117, R118, R119, R121, R123, R138, R141 to R145). -/
def Obligations.MarkClosesInterval : Prop :=
  ∀ (s : State) (f : Frame) (rest : List Frame) (w : Word), Settled s → Asks s 13 f rest → f.values = [w] →
    (s.bill.job = .noJob → exec .mark s = .next (answered f rest 13 [w] s)) ∧
    (s.bill.job = .opened → 255 < w.toNat → exec .mark s = .next (answered f rest 7 [w] s)) ∧
    (s.bill.job = .opened → w.toNat ≤ 255 → ∀ o, s.interval.current = some o →
      (s.depth.hole ≤ o.top → exec .mark s = .next (answered f rest 0 [0, 0] { s with
        interval := { s.interval with current := some { o with note := w.toNat } } })) ∧
      (o.top < s.depth.hole →
        ∃ t, exec .mark s = .next t ∧
          Answer t f rest 0 [BitVec.ofNat 16 (o.number / 65536), BitVec.ofNat 16 o.number] ∧
          t.interval.counter = (if s.interval.counter = 4294967295 then 1 else s.interval.counter + 1) ∧
          (∃ n, t.interval.current = some n ∧ n.number = t.interval.counter ∧ n.top = s.depth.hole ∧
            n.openTime = s.depth.jobClock ∧ n.sumT = 0 ∧ n.note = 0) ∧
          (∃ r : Strata, r.number = o.number ∧ r.top = o.top ∧ r.bottom = s.depth.hole ∧ r.trigger = .mark ∧
            r.note = w.toNat ∧ r.openTime = o.openTime ∧ r.closeTime = s.depth.jobClock ∧ r.loss = o.loss ∧
            (∀ area bounds, o.area = some area → o.bounds = some bounds →
              (∀ b ∈ unclassedCauses o (s.depth.hole - o.top), b = false) →
              r.energy = specificEnergy o area (s.depth.hole - o.top) ∧
              r.cls = some (bounds.countP fun b => decide (b ≤ r.energy)) ∧
              r.cls = some t.interval.currentClass) ∧
            (∀ i, (unclassedCauses o (s.depth.hole - o.top)).idxOf? true = some i →
              r.energy = 0 ∧ r.cls = none ∧ t.interval.currentClass = s.interval.currentClass ∧
              Occurred srcUnclassed (BitVec.ofNat 32 (i + 1)) true s t) ∧
            (let enters := s.rod.out = [] ∧ s.bill.outBuffer = none ∧ s.lag.hold = [] ∧
                (∀ e ∈ s.lag.queue.head?, e.stage = .waiting) ∧ s.line.records.length + 3 ≤ 64;
              let entered := fun part : LagPart => t.lag.hold = s.lag.hold ∧ t.lag.queue = s.lag.queue ∧
                framesOf 2 s.line.serial (strataRecord r part).frames <+: newFrames s t;
              let unlagged := (s.lag.hold.length < 4 →
                  (enters → entered unlaggedPart) ∧
                  (¬enters → t.lag = { s.lag with hold := s.lag.hold ++ [r] })) ∧
                (4 ≤ s.lag.hold.length → t.lag = s.lag ∧ t.event.accounts[srcQueueFull].pending = true);
              (s.tables[tProfile].active = none → unlagged) ∧
              (∀ pages, s.tables[tProfile].active = some pages →
                (64 ≤ s.lag.queue.length →
                  unlagged ∧ Occurred srcLagOverflow (BitVec.ofNat 32 o.number) true s t) ∧
                (s.lag.queue.length < 64 →
                  let reckoned := min 18446744073709551615
                    (s.circ.pumped + annularVolume pages s.depth.hole * 1000);
                  let arrival := match s.lag.queue.getLast? with
                    | some tail => max reckoned tail.arrival
                    | none => reckoned;
                  let due := LagStage.due s.depth.jobClock (held s 3) (held s 12) (cond s srcPitLoss);
                  (enters → s.lag.queue = [] → arrival ≤ s.circ.pumped → entered (lagPartOf due)) ∧
                  (¬(enters ∧ s.lag.queue = [] ∧ arrival ≤ s.circ.pumped) →
                    t.lag = { s.lag with queue := s.lag.queue ++ [
                      { strata := r, arrival := arrival,
                        stage := if arrival ≤ s.circ.pumped then due else .waiting }] }))))) ∧
          t.depth = s.depth ∧ t.rod = s.rod ∧ t.circ = s.circ ∧ t.channels = s.channels ∧ t.gov = s.gov ∧
          t.tables = s.tables))

/-! ## The pit balance, the activity, the classes, the lag unit -/

/-- A BASELINE is NOT_READY in BYPASS or with PIT_VOLUME not LIVE or STALE; otherwise the balance is WATCHING with the
held volume as reference and A and D at 0, and BALANCE_SUSPENDED is false (R102, R108). -/
def Obligations.BaselineIsTaken : Prop :=
  ∀ (s : State) (f : Frame) (rest : List Frame), Settled s → Asks s 14 f rest → f.values = [] → s.bill.job ≠ .ending →
    (s.line.mode = .bypass ∨ held s 4 = none → exec .baseline s = .next (answered f rest 2 [] s)) ∧
    (∀ v, s.line.mode ≠ .bypass → held s 4 = some v →
      ∃ t, exec .baseline s = .next t ∧ Answer t f rest 0 [] ∧
        t.circ = { s.circ with watching := true, reference := v * 1000000, adjustment := 0, deviation := 0 } ∧
        cond t srcBalanceSuspended = false ∧ t.depth = s.depth ∧ t.rod = s.rod ∧ t.lag = s.lag ∧ t.bill = s.bill ∧
        t.gov = s.gov ∧ t.channels = s.channels ∧ t.tables = s.tables)

/-- An ADDITION is BAD_VALUE out of ±1,000,000 L, NOT_READY in BYPASS or while SUSPENDED; otherwise A changes by the
litres × 1,000,000 and D is the measured volume less R_p and A, where these fit their 64 bits (R101, R104, R109). That
BAD_VALUE comes before NOT_READY, and NOT_READY before the OK of an ADDITION of 0, is the model's choice (log 38). -/
def Obligations.AdditionMovesBalance : Prop :=
  ∀ (s : State) (f : Frame) (rest : List Frame) (hi lo : Word), Settled s → Asks s 15 f rest → f.values = [hi, lo] →
    s.bill.job ≠ .ending →
    let x : Int := (hi ++ lo : BitVec 32).toInt;
    (x < -1000000 ∨ 1000000 < x → exec .addition s = .next (answered f rest 7 [hi, lo] s)) ∧
    (-1000000 ≤ x → x ≤ 1000000 → s.line.mode = .bypass ∨ s.circ.watching = false →
      exec .addition s = .next (answered f rest 2 [hi, lo] s)) ∧
    (x = 0 → s.line.mode ≠ .bypass → s.circ.watching = true →
      exec .addition s = .next (answered f rest 0 [hi, lo] s)) ∧
    (∀ v, x ≠ 0 → -1000000 ≤ x → x ≤ 1000000 → s.line.mode ≠ .bypass → s.circ.watching = true →
      held s 4 = some v →
      let a := s.circ.adjustment + x * 1000000;
      let d := (v : Int) * 1000000 - (s.circ.reference + a);
      -9223372036854775808 ≤ a → a ≤ 9223372036854775807 → -9223372036854775808 ≤ d → d ≤ 9223372036854775807 →
      ∃ t, exec .addition s = .next t ∧ Answer t f rest 0 [hi, lo] ∧
        t.circ = { s.circ with adjustment := a, deviation := d } ∧ t.depth = s.depth ∧ t.rod = s.rod ∧
        t.lag = s.lag ∧ t.bill = s.bill ∧ t.gov = s.gov ∧ t.channels = s.channels ∧ t.tables = s.tables)

/-- A DOWNTIME request: another value than 0, 1, 2 is BAD_VALUE; otherwise the declaration is END, STANDBY or REPAIR and,
out of BYPASS, a declared STANDBY or REPAIR is the activity at once (R57, R59, R61). -/
def Obligations.DowntimeIsDeclared : Prop :=
  ∀ (s : State) (f : Frame) (rest : List Frame) (w : Word), Settled s → Asks s 16 f rest → f.values = [w] → s.bill.job ≠ .ending →
    (2 < w.toNat → exec .downtime s = .next (answered f rest 7 [w] s)) ∧
    (w.toNat ≤ 2 →
      ∃ t, exec .downtime s = .next t ∧ Answer t f rest 0 [w] ∧
        t.depth.downtime = (if w = 0 then .none else if w = 1 then .standby else .repair) ∧
        (s.line.mode ≠ .bypass → w = 1 → t.depth.activity = .standby ∧ t.depth.dwellStart = none) ∧
        (s.line.mode ≠ .bypass → w = 2 → t.depth.activity = .repair ∧ t.depth.dwellStart = none) ∧
        (s.line.mode = .bypass → t.depth.activity = .untracked) ∧
        t.depth.hole = s.depth.hole ∧ t.depth.jobClock = s.depth.jobClock ∧ t.rod = s.rod ∧ t.circ = s.circ ∧
        t.lag = s.lag ∧ t.interval = s.interval ∧ t.bill = s.bill ∧ t.gov = s.gov ∧ t.channels = s.channels ∧
        t.tables = s.tables)

/-- The states of an alarm class. An ACK_CLASS above 7 is BAD_VALUE; an INACTIVE class stays, OK; with its conditions
clear a class is INACTIVE, OK (for ACKNOWLEDGE_WAIT, of which the spec says nothing, the model's choice, log 20); with
one true a latched ACTIVE class waits and STILL_ACTIVE is answered. Value 1 is the state that the acknowledgement gives
(log 8). Every change makes STATUS due. An occurrence, or a condition becoming true, makes the class of its source
ACTIVE, with every action it carries in force; a condition becoming false leaves it as latch and other conditions say; a
source routed to NONE acts on no class (R168, R169, R172 to R175). -/
def Obligations.AckClassAcknowledges : Prop :=
  (∀ (s : State) (f : Frame) (rest : List Frame) (w : Word), Settled s → Asks s 17 f rest → f.values = [w] →
    s.bill.job ≠ .ending →
    (7 < w.toNat → exec .ackClass s = .next (answered f rest 7 [w] s)) ∧
    (∀ k : AlarmClass, w.toNat = k.val →
      let stillTrue := routedTrue s k;
      let put := fun (c : ClassState) (due : StatusCause) => { s with
        line := { s.line with statusDue := some due }
        event := { s.event with classes := s.event.classes.set k c } };
      let changes := fun (c : ClassState) (code : Nat) =>
        (∀ due, s.line.statusDue = some due →
          exec .ackClass s = .next (answered f rest code [BitVec.ofNat 16 c.code] (put c due))) ∧
        (s.line.statusDue = none → ∃ t, exec .ackClass s = .next t ∧
          SameButRecords (answered f rest code [BitVec.ofNat 16 c.code] (put c .cls)) t ∧ StatusMade .cls s t ∧
          (routeOf s srcQueueFull ≠ some k → routeOf s srcPumpClamp ≠ some k → t.event.classes[k] = c));
      (s.event.classes[k] = .inactive → exec .ackClass s = .next (answered f rest 0 [0] s)) ∧
      (s.event.classes[k] = .active → stillTrue = true → latched s k = false →
        exec .ackClass s = .next (answered f rest 16 [1] s)) ∧
      (s.event.classes[k] = .ackWait → stillTrue = true → exec .ackClass s = .next (answered f rest 16 [2] s)) ∧
      (s.event.classes[k] ≠ .inactive → stillTrue = false → changes .inactive 0) ∧
      (s.event.classes[k] = .active → stillTrue = true → latched s k = true → changes .ackWait 16))) ∧
  (∀ (s : State) (o : Occ) (k : AlarmClass), routeOf s o.src = some k →
    let t := raise o s;
    SameButEvents s t ∧ t.event.classes[k] = .active ∧ (∀ a, classCarries s k a = true → actionInForce t a = true) ∧
      (∀ j : AlarmClass, s.event.classes[j] = .active → t.event.classes[j] = .active) ∧
      (s.event.classes[k] ≠ .active → t.line.statusDue = some (s.line.statusDue.getD .cls))) ∧
  (∀ (s : State) (o : Occ), routeOf s o.src = none →
    let a := s.event.accounts[o.src];
    raise o s = { s with event := { s.event with
      accounts := s.event.accounts.set o.src { a with
        pending := true, count := min 255 (a.count + 1), detail := o.detail, applied := o.applied
        firstTime := if a.pending then a.firstTime else s.depth.jobClock } } }) ∧
  (∀ (s : State) (src : Source) (b : Bool), cond s src = b → report src b s = s) ∧
  (∀ (s : State) (src : Source) (b : Bool), cond s src ≠ b → routeOf s src = none →
    report src b s = { s with event := { s.event with
      accounts := s.event.accounts.set src { s.event.accounts[src] with cond := b } } }) ∧
  (∀ (s : State) (src : Source) (k : AlarmClass), cond s src = false → routeOf s src = some k →
    let t := report src true s;
    SameButEvents s t ∧ cond t src = true ∧ t.event.classes[k] = .active ∧
      (∀ a, classCarries s k a = true → actionInForce t a = true) ∧
      (s.event.classes[k] ≠ .active → t.line.statusDue = some (s.line.statusDue.getD .cls))) ∧
  (∀ (s : State) (src : Source) (k : AlarmClass), cond s src = true → routeOf s src = some k →
    let other := ∃ x : Source, x ≠ src ∧ isConditionSource x = true ∧ cond s x = true ∧ routeOf s x = some k;
    let stays := s.event.classes[k] = .inactive ∨ other ∨ (s.event.classes[k] = .active ∧ latched s k = true);
    let put := fun c : ClassState => { s with event := { s.event with
      accounts := s.event.accounts.set src { s.event.accounts[src] with cond := false }
      classes := s.event.classes.set k c } };
    (stays → report src false s = put s.event.classes[k]) ∧
    (¬stays → report src false s = { put .inactive with
      line := { s.line with statusDue := some (s.line.statusDue.getD .cls) } }))

/-- A FLUSH_LAG marks every WAITING entry FORCED with the job time and answers how many; the other entries and the hold
are kept. Where the head was WAITING with an empty hold and no ROD or TICKET record ahead, as many entries as there is
room for, three frames each, have entered by the end of the step; the others are kept. When they enter (log 4), and that
they enter with CAB UP or DOWN (log 30), are the model's choices (R121 to R124). -/
def Obligations.FlushLagForcesEntries : Prop :=
  ∀ (s : State) (f : Frame) (rest : List Frame), Settled s → Asks s 18 f rest → f.values = [] →
    s.bill.job ≠ .ending →
    let forced := s.lag.queue.map fun e =>
      if e.stage = .waiting then { e with stage := .forced s.depth.jobClock } else e;
    let n := s.lag.queue.countP fun e => e.stage = .waiting;
    let k := if s.rod.out = [] ∧ s.bill.outBuffer = none ∧ s.lag.hold = [] ∧
        (∀ e ∈ s.lag.queue.head?, e.stage = .waiting) then
      min forced.length ((64 - s.line.records.length) / 3) else 0;
    ∃ t, exec .flushLag s = .next t ∧ Answer t f rest 0 [BitVec.ofNat 16 n] ∧
      t.lag.queue = forced.drop k ∧ t.lag.hold = s.lag.hold ∧
      ((forced.take k).zipIdx.flatMap fun x =>
        framesOf 2 ((s.line.serial + x.2) % 256) (strataRecord x.1.strata (lagPartOf x.1.stage)).frames) <+:
          newFrames s t ∧
      s.line.records <+: t.line.records ∧ (s.lag.flushWatch = false → t.bill = s.bill ∧ t.lag.flushWatch = false) ∧
      t.depth = s.depth ∧ t.rod = s.rod ∧ t.circ = s.circ ∧ t.interval = s.interval ∧ t.gov = s.gov ∧
      t.channels = s.channels ∧ t.tables = s.tables

/-! ## Decoding -/

/-- Each request step: a COUNT that does not fit is BAD_REQUEST, in every job state; while ENDING a request of a fitting
COUNT is BUSY, but for STATUS and MODE; a kind the part does not know is BAD_REQUEST; each echoes the request and changes
nothing. Nothing is taken while the response slot holds a response or a completion response waits; and, the model's
choice (log 1, log 3), a request step whose kind is not at the head changes nothing (R20, R21, R149, R198, R199). -/
def Obligations.DecoderAnswersAlike : Prop :=
  ∀ (s : State) (f : Frame) (rest : List Frame),
    (∀ i tag counts, (i, tag, counts) ∈ requestTable → Asks s (BitVec.ofNat 8 tag) f rest →
      (f.values.length ∉ counts → exec i s = .next (answered f rest 4 (echo f) s)) ∧
      (f.values.length ∈ counts → s.bill.job = .ending → i ≠ .mode → i ≠ .status →
        exec i s = .next (answered f rest 3 (echo f) s))) ∧
    (∀ tag : BitVec 8, (tag.toNat = 0 ∨ 19 < tag.toNat) → Asks s tag f rest →
      exec .unknownRequest s = .next (answered f rest 4 (echo f) s)) ∧
    (∀ i tag counts, (i, tag, counts) ∈ requestTable →
      (s.line.response ≠ none ∨ s.line.completion ≠ none ∨ (∀ g ∈ s.line.requests.head?, g.tag.toNat ≠ tag)) →
      exec i s = .next s)

/-! ## Reset -/

/-- Power-on reset leaves every unit as after power-on, whatever came before; that the queue of commands and the free
order of notices stay is the model's choice (log 1, log 7, log 11). The BYPASS output is asserted while RESET is held
and from power-up on, whatever the mode, and the reset that completes ends both (R13). -/
def Obligations.PowerOnResetClears : Prop :=
  ∀ s : State,
    exec .powerOnReset s = .next { State.reset with pending := s.pending, noticeOrder := s.noticeOrder } ∧
    inReset s.holdReset = true ∧ s.holdReset.line.bypassOut = true ∧ s.holdReset.line.mode = s.line.mode ∧
    inReset s.powerUp = true ∧ s.powerUp.line.bypassOut = true ∧ s.powerUp.line.mode = s.line.mode ∧
    inReset State.reset = false ∧ State.reset.line.bypassOut = true

/-- What the spec says of the part after power-on reset: BYPASS with its output asserted, both ports DOWN, every FIFO,
queue and list empty, every channel ABSENT unsettled with its limits ARMED, NO_JOB, every account and class clear, the
governor holding nothing, no active table and every pending word 0 (R2, R12, R13, R18 to R22, R30, R111, R128, R148,
R167, R172, R178, R193). -/
def Obligations.ResetStateIsAsStated : Prop :=
  let r := State.reset;
  r.line.mode = .bypass ∧ r.line.bypassOut = true ∧ r.line.fieldLink.up = false ∧ r.line.cabLink.up = false ∧
    r.line.forward = [] ∧ r.line.downstream = [] ∧ r.line.requests = [] ∧ r.line.response = none ∧
    r.line.completion = none ∧ r.line.injections = [] ∧ r.line.forwardedRun = 0 ∧ r.line.records = [] ∧
    r.line.serial = 0 ∧ r.line.highWater = 0 ∧ r.line.statusDue = none ∧
    (∀ c : Ch, r.channels[c].state = .absentUnsettled ∧ r.channels[c].value = none ∧
      r.channels[c].baseline = none ∧ r.channels[c].limit1 = .armed ∧ r.channels[c].limit2 = .armed) ∧
    r.depth.hole = 0 ∧ r.depth.activity = .untracked ∧ r.depth.downtime = .none ∧ r.depth.jobClock = 0 ∧
    r.depth.clockRuns = false ∧ r.rod.table = [] ∧ r.rod.string = [] ∧ r.rod.valid = false ∧
    r.rod.fatigueClock = 0 ∧ r.rod.out = [] ∧ r.circ.rate1 = none ∧ r.circ.rate2 = none ∧ r.circ.pumped = 0 ∧
    r.circ.flowIn = 0 ∧ r.circ.segment = none ∧ r.circ.watching = false ∧ r.lag.queue = [] ∧ r.lag.hold = [] ∧
    r.interval.current = none ∧ r.interval.counter = 0 ∧ r.bill.job = .noJob ∧ r.bill.ticketOpen = false ∧
    r.bill.outBuffer = none ∧ r.bill.deferred = false ∧
    (∀ src : Source, r.event.accounts[src].pending = false ∧ r.event.accounts[src].count = 0 ∧
      r.event.accounts[src].applied = true ∧ r.event.accounts[src].cond = false) ∧
    (∀ k : AlarmClass, r.event.classes[k] = .inactive) ∧ r.gov.setpoint1 = none ∧ r.gov.setpoint2 = none ∧
    r.gov.holder = .none ∧ (∀ t : TableNo, r.tables[t].active = none ∧
      (∀ page ∈ r.tables[t].pending, ∀ i : Fin 12, page[i] = 0) ∧ ∀ b ∈ r.tables[t].mask, b = false)

/-! ## Laws that every step keeps -/

/-- Every law holds of the state right after reset. -/
def Obligations.ResetMeetsLaws : Prop :=
  Fits State.reset ∧ Settled State.reset ∧ BypassLaw State.reset ∧ JobLaw State.reset ∧ ConditionLaw State.reset ∧ RodLaw State.reset ∧
    SumsLaw State.reset

/-- Every step keeps every FIFO, queue, list and count within its size, and leaves no record waiting that could enter
(at the end of the step: log 4) (R22, R23). -/
def Obligations.StepsKeepSizes : Prop :=
  ∀ s t : State, Fits s → step s = .next t → Fits t ∧ (Settled s → Settled t)

/-- Every step keeps what BYPASS and reset imply of the line, the channels, the stroke rates, the activity and the
governor. -/
def Obligations.StepsKeepBypassLaw : Prop := ∀ s t : State, BypassLaw s → step s = .next t → BypassLaw t

/-- Every step keeps what the job state implies of ticket, interval, clock, deferred tariff and ending watch. -/
def Obligations.StepsKeepJobLaw : Prop := ∀ s t : State, JobLaw s → step s = .next t → JobLaw t

/-- Every step keeps the limit, channel-fault and link conditions equal to the states they speak of. -/
def Obligations.StepsKeepConditions : Prop := ∀ s t : State, ConditionLaw s → step s = .next t → ConditionLaw t

/-- Every step keeps the rod table and the string to one another. -/
def Obligations.StepsKeepRodLaw : Prop := ∀ s t : State, RodLaw s → step s = .next t → RodLaw t

/-- Every step keeps the three sums equal to those over the string's rods. -/
def Obligations.StepsKeepSums : Prop := ∀ s t : State, RodLaw s → SumsLaw s → step s = .next t → SumsLaw t

/-- While a job is OPEN or ENDING no command but a power-on reset makes the hole depth less; and the used bit depth
never exceeds the hole depth (R49). -/
def Obligations.HoleDepthOnlyGrows : Prop :=
  ∀ (i : Instr) (s t : State), exec i s = .next t → i ≠ .powerOnReset →
    (s.bill.job ≠ .noJob → s.depth.hole ≤ t.depth.hole) ∧
    ((∀ u, s.depth.usedBit = some u → u ≤ s.depth.hole) → ∀ u, t.depth.usedBit = some u → u ≤ t.depth.hole)

/-- A table changes for the units at its activation only: of all commands only ACTIVATE, the two that snapshot a ticket
and a power-on reset change an active copy, and a LOAD changes none (R193, R194, R195). -/
def Obligations.ActiveCopiesChangeOnlyThen : Prop :=
  ∀ (i : Instr) (s t : State), exec i s = .next t →
    i ≠ .activate → i ≠ .shiftClose → i ≠ .jobEnd → i ≠ .powerOnReset →
    ∀ n : TableNo, t.tables[n].active = s.tables[n].active

/-- An accrual loses nothing: while quantity and amount stay below 2^32, amount × divisor + carry grows by quantity ×
rate, and the carry is less than the divisor (R155). -/
def Obligations.AccrualKeepsCarry : Prop :=
  ∀ (l : TicketLine) (divisor q r : Nat), 0 < divisor → l.quantity + q ≤ 4294967295 →
    l.amount + (l.carry + q * r) / divisor ≤ 4294967295 →
    (l.accrue divisor q r).quantity = l.quantity + q ∧
    (l.accrue divisor q r).amount * divisor + (l.accrue divisor q r).carry =
      l.amount * divisor + l.carry + q * r ∧
    (l.accrue divisor q r).carry < divisor ∧ (l.accrue divisor q r).saturated = l.saturated
end

