-- ==== Sys2Proof/Laws/State.lean ====
section
/-! SUPPORT. What each field of the state is after each unit is written. -/

namespace Sys2Proof.Machine

section
variable (s : State) (x : LineState)

@[simp] theorem State.setLine_now : (s.setLine x).now = s.now := rfl
@[simp] theorem State.setLine_pending : (s.setLine x).pending = s.pending := rfl
@[simp] theorem State.setLine_noticeOrder : (s.setLine x).noticeOrder = s.noticeOrder := rfl
@[simp] theorem State.setLine_line : (s.setLine x).line = x := rfl
@[simp] theorem State.setLine_channels : (s.setLine x).channels = s.channels := rfl
@[simp] theorem State.setLine_depth : (s.setLine x).depth = s.depth := rfl
@[simp] theorem State.setLine_rod : (s.setLine x).rod = s.rod := rfl
@[simp] theorem State.setLine_circ : (s.setLine x).circ = s.circ := rfl
@[simp] theorem State.setLine_lag : (s.setLine x).lag = s.lag := rfl
@[simp] theorem State.setLine_interval : (s.setLine x).interval = s.interval := rfl
@[simp] theorem State.setLine_bill : (s.setLine x).bill = s.bill := rfl
@[simp] theorem State.setLine_event : (s.setLine x).event = s.event := rfl
@[simp] theorem State.setLine_gov : (s.setLine x).gov = s.gov := rfl
@[simp] theorem State.setLine_tables : (s.setLine x).tables = s.tables := rfl
@[simp] theorem State.setLine_setLine (y : LineState) : (s.setLine x).setLine y = s.setLine y := rfl

end

section
variable (s : State) (x : Vector Channel 16)

@[simp] theorem State.setChannels_now : (s.setChannels x).now = s.now := rfl
@[simp] theorem State.setChannels_pending : (s.setChannels x).pending = s.pending := rfl
@[simp] theorem State.setChannels_noticeOrder : (s.setChannels x).noticeOrder = s.noticeOrder := rfl
@[simp] theorem State.setChannels_line : (s.setChannels x).line = s.line := rfl
@[simp] theorem State.setChannels_channels : (s.setChannels x).channels = x := rfl
@[simp] theorem State.setChannels_depth : (s.setChannels x).depth = s.depth := rfl
@[simp] theorem State.setChannels_rod : (s.setChannels x).rod = s.rod := rfl
@[simp] theorem State.setChannels_circ : (s.setChannels x).circ = s.circ := rfl
@[simp] theorem State.setChannels_lag : (s.setChannels x).lag = s.lag := rfl
@[simp] theorem State.setChannels_interval : (s.setChannels x).interval = s.interval := rfl
@[simp] theorem State.setChannels_bill : (s.setChannels x).bill = s.bill := rfl
@[simp] theorem State.setChannels_event : (s.setChannels x).event = s.event := rfl
@[simp] theorem State.setChannels_gov : (s.setChannels x).gov = s.gov := rfl
@[simp] theorem State.setChannels_tables : (s.setChannels x).tables = s.tables := rfl
@[simp] theorem State.setChannels_setChannels (y : Vector Channel 16) : (s.setChannels x).setChannels y = s.setChannels y := rfl

end

section
variable (s : State) (x : DepthState)

@[simp] theorem State.setDepth_now : (s.setDepth x).now = s.now := rfl
@[simp] theorem State.setDepth_pending : (s.setDepth x).pending = s.pending := rfl
@[simp] theorem State.setDepth_noticeOrder : (s.setDepth x).noticeOrder = s.noticeOrder := rfl
@[simp] theorem State.setDepth_line : (s.setDepth x).line = s.line := rfl
@[simp] theorem State.setDepth_channels : (s.setDepth x).channels = s.channels := rfl
@[simp] theorem State.setDepth_depth : (s.setDepth x).depth = x := rfl
@[simp] theorem State.setDepth_rod : (s.setDepth x).rod = s.rod := rfl
@[simp] theorem State.setDepth_circ : (s.setDepth x).circ = s.circ := rfl
@[simp] theorem State.setDepth_lag : (s.setDepth x).lag = s.lag := rfl
@[simp] theorem State.setDepth_interval : (s.setDepth x).interval = s.interval := rfl
@[simp] theorem State.setDepth_bill : (s.setDepth x).bill = s.bill := rfl
@[simp] theorem State.setDepth_event : (s.setDepth x).event = s.event := rfl
@[simp] theorem State.setDepth_gov : (s.setDepth x).gov = s.gov := rfl
@[simp] theorem State.setDepth_tables : (s.setDepth x).tables = s.tables := rfl
@[simp] theorem State.setDepth_setDepth (y : DepthState) : (s.setDepth x).setDepth y = s.setDepth y := rfl

end

section
variable (s : State) (x : RodState)

@[simp] theorem State.setRod_now : (s.setRod x).now = s.now := rfl
@[simp] theorem State.setRod_pending : (s.setRod x).pending = s.pending := rfl
@[simp] theorem State.setRod_noticeOrder : (s.setRod x).noticeOrder = s.noticeOrder := rfl
@[simp] theorem State.setRod_line : (s.setRod x).line = s.line := rfl
@[simp] theorem State.setRod_channels : (s.setRod x).channels = s.channels := rfl
@[simp] theorem State.setRod_depth : (s.setRod x).depth = s.depth := rfl
@[simp] theorem State.setRod_rod : (s.setRod x).rod = x := rfl
@[simp] theorem State.setRod_circ : (s.setRod x).circ = s.circ := rfl
@[simp] theorem State.setRod_lag : (s.setRod x).lag = s.lag := rfl
@[simp] theorem State.setRod_interval : (s.setRod x).interval = s.interval := rfl
@[simp] theorem State.setRod_bill : (s.setRod x).bill = s.bill := rfl
@[simp] theorem State.setRod_event : (s.setRod x).event = s.event := rfl
@[simp] theorem State.setRod_gov : (s.setRod x).gov = s.gov := rfl
@[simp] theorem State.setRod_tables : (s.setRod x).tables = s.tables := rfl
@[simp] theorem State.setRod_setRod (y : RodState) : (s.setRod x).setRod y = s.setRod y := rfl

end

section
variable (s : State) (x : CircState)

@[simp] theorem State.setCirc_now : (s.setCirc x).now = s.now := rfl
@[simp] theorem State.setCirc_pending : (s.setCirc x).pending = s.pending := rfl
@[simp] theorem State.setCirc_noticeOrder : (s.setCirc x).noticeOrder = s.noticeOrder := rfl
@[simp] theorem State.setCirc_line : (s.setCirc x).line = s.line := rfl
@[simp] theorem State.setCirc_channels : (s.setCirc x).channels = s.channels := rfl
@[simp] theorem State.setCirc_depth : (s.setCirc x).depth = s.depth := rfl
@[simp] theorem State.setCirc_rod : (s.setCirc x).rod = s.rod := rfl
@[simp] theorem State.setCirc_circ : (s.setCirc x).circ = x := rfl
@[simp] theorem State.setCirc_lag : (s.setCirc x).lag = s.lag := rfl
@[simp] theorem State.setCirc_interval : (s.setCirc x).interval = s.interval := rfl
@[simp] theorem State.setCirc_bill : (s.setCirc x).bill = s.bill := rfl
@[simp] theorem State.setCirc_event : (s.setCirc x).event = s.event := rfl
@[simp] theorem State.setCirc_gov : (s.setCirc x).gov = s.gov := rfl
@[simp] theorem State.setCirc_tables : (s.setCirc x).tables = s.tables := rfl
@[simp] theorem State.setCirc_setCirc (y : CircState) : (s.setCirc x).setCirc y = s.setCirc y := rfl

end

section
variable (s : State) (x : LagState)

@[simp] theorem State.setLag_now : (s.setLag x).now = s.now := rfl
@[simp] theorem State.setLag_pending : (s.setLag x).pending = s.pending := rfl
@[simp] theorem State.setLag_noticeOrder : (s.setLag x).noticeOrder = s.noticeOrder := rfl
@[simp] theorem State.setLag_line : (s.setLag x).line = s.line := rfl
@[simp] theorem State.setLag_channels : (s.setLag x).channels = s.channels := rfl
@[simp] theorem State.setLag_depth : (s.setLag x).depth = s.depth := rfl
@[simp] theorem State.setLag_rod : (s.setLag x).rod = s.rod := rfl
@[simp] theorem State.setLag_circ : (s.setLag x).circ = s.circ := rfl
@[simp] theorem State.setLag_lag : (s.setLag x).lag = x := rfl
@[simp] theorem State.setLag_interval : (s.setLag x).interval = s.interval := rfl
@[simp] theorem State.setLag_bill : (s.setLag x).bill = s.bill := rfl
@[simp] theorem State.setLag_event : (s.setLag x).event = s.event := rfl
@[simp] theorem State.setLag_gov : (s.setLag x).gov = s.gov := rfl
@[simp] theorem State.setLag_tables : (s.setLag x).tables = s.tables := rfl
@[simp] theorem State.setLag_setLag (y : LagState) : (s.setLag x).setLag y = s.setLag y := rfl

end

section
variable (s : State) (x : IntervalState)

@[simp] theorem State.setInterval_now : (s.setInterval x).now = s.now := rfl
@[simp] theorem State.setInterval_pending : (s.setInterval x).pending = s.pending := rfl
@[simp] theorem State.setInterval_noticeOrder : (s.setInterval x).noticeOrder = s.noticeOrder := rfl
@[simp] theorem State.setInterval_line : (s.setInterval x).line = s.line := rfl
@[simp] theorem State.setInterval_channels : (s.setInterval x).channels = s.channels := rfl
@[simp] theorem State.setInterval_depth : (s.setInterval x).depth = s.depth := rfl
@[simp] theorem State.setInterval_rod : (s.setInterval x).rod = s.rod := rfl
@[simp] theorem State.setInterval_circ : (s.setInterval x).circ = s.circ := rfl
@[simp] theorem State.setInterval_lag : (s.setInterval x).lag = s.lag := rfl
@[simp] theorem State.setInterval_interval : (s.setInterval x).interval = x := rfl
@[simp] theorem State.setInterval_bill : (s.setInterval x).bill = s.bill := rfl
@[simp] theorem State.setInterval_event : (s.setInterval x).event = s.event := rfl
@[simp] theorem State.setInterval_gov : (s.setInterval x).gov = s.gov := rfl
@[simp] theorem State.setInterval_tables : (s.setInterval x).tables = s.tables := rfl
@[simp] theorem State.setInterval_setInterval (y : IntervalState) : (s.setInterval x).setInterval y = s.setInterval y := rfl

end

section
variable (s : State) (x : BillState)

@[simp] theorem State.setBill_now : (s.setBill x).now = s.now := rfl
@[simp] theorem State.setBill_pending : (s.setBill x).pending = s.pending := rfl
@[simp] theorem State.setBill_noticeOrder : (s.setBill x).noticeOrder = s.noticeOrder := rfl
@[simp] theorem State.setBill_line : (s.setBill x).line = s.line := rfl
@[simp] theorem State.setBill_channels : (s.setBill x).channels = s.channels := rfl
@[simp] theorem State.setBill_depth : (s.setBill x).depth = s.depth := rfl
@[simp] theorem State.setBill_rod : (s.setBill x).rod = s.rod := rfl
@[simp] theorem State.setBill_circ : (s.setBill x).circ = s.circ := rfl
@[simp] theorem State.setBill_lag : (s.setBill x).lag = s.lag := rfl
@[simp] theorem State.setBill_interval : (s.setBill x).interval = s.interval := rfl
@[simp] theorem State.setBill_bill : (s.setBill x).bill = x := rfl
@[simp] theorem State.setBill_event : (s.setBill x).event = s.event := rfl
@[simp] theorem State.setBill_gov : (s.setBill x).gov = s.gov := rfl
@[simp] theorem State.setBill_tables : (s.setBill x).tables = s.tables := rfl
@[simp] theorem State.setBill_setBill (y : BillState) : (s.setBill x).setBill y = s.setBill y := rfl

end

section
variable (s : State) (x : EventState)

@[simp] theorem State.setEvent_now : (s.setEvent x).now = s.now := rfl
@[simp] theorem State.setEvent_pending : (s.setEvent x).pending = s.pending := rfl
@[simp] theorem State.setEvent_noticeOrder : (s.setEvent x).noticeOrder = s.noticeOrder := rfl
@[simp] theorem State.setEvent_line : (s.setEvent x).line = s.line := rfl
@[simp] theorem State.setEvent_channels : (s.setEvent x).channels = s.channels := rfl
@[simp] theorem State.setEvent_depth : (s.setEvent x).depth = s.depth := rfl
@[simp] theorem State.setEvent_rod : (s.setEvent x).rod = s.rod := rfl
@[simp] theorem State.setEvent_circ : (s.setEvent x).circ = s.circ := rfl
@[simp] theorem State.setEvent_lag : (s.setEvent x).lag = s.lag := rfl
@[simp] theorem State.setEvent_interval : (s.setEvent x).interval = s.interval := rfl
@[simp] theorem State.setEvent_bill : (s.setEvent x).bill = s.bill := rfl
@[simp] theorem State.setEvent_event : (s.setEvent x).event = x := rfl
@[simp] theorem State.setEvent_gov : (s.setEvent x).gov = s.gov := rfl
@[simp] theorem State.setEvent_tables : (s.setEvent x).tables = s.tables := rfl
@[simp] theorem State.setEvent_setEvent (y : EventState) : (s.setEvent x).setEvent y = s.setEvent y := rfl

end

section
variable (s : State) (x : GovState)

@[simp] theorem State.setGov_now : (s.setGov x).now = s.now := rfl
@[simp] theorem State.setGov_pending : (s.setGov x).pending = s.pending := rfl
@[simp] theorem State.setGov_noticeOrder : (s.setGov x).noticeOrder = s.noticeOrder := rfl
@[simp] theorem State.setGov_line : (s.setGov x).line = s.line := rfl
@[simp] theorem State.setGov_channels : (s.setGov x).channels = s.channels := rfl
@[simp] theorem State.setGov_depth : (s.setGov x).depth = s.depth := rfl
@[simp] theorem State.setGov_rod : (s.setGov x).rod = s.rod := rfl
@[simp] theorem State.setGov_circ : (s.setGov x).circ = s.circ := rfl
@[simp] theorem State.setGov_lag : (s.setGov x).lag = s.lag := rfl
@[simp] theorem State.setGov_interval : (s.setGov x).interval = s.interval := rfl
@[simp] theorem State.setGov_bill : (s.setGov x).bill = s.bill := rfl
@[simp] theorem State.setGov_event : (s.setGov x).event = s.event := rfl
@[simp] theorem State.setGov_gov : (s.setGov x).gov = x := rfl
@[simp] theorem State.setGov_tables : (s.setGov x).tables = s.tables := rfl
@[simp] theorem State.setGov_setGov (y : GovState) : (s.setGov x).setGov y = s.setGov y := rfl

end

section
variable (s : State) (x : Vector Table 9)

@[simp] theorem State.setTables_now : (s.setTables x).now = s.now := rfl
@[simp] theorem State.setTables_pending : (s.setTables x).pending = s.pending := rfl
@[simp] theorem State.setTables_noticeOrder : (s.setTables x).noticeOrder = s.noticeOrder := rfl
@[simp] theorem State.setTables_line : (s.setTables x).line = s.line := rfl
@[simp] theorem State.setTables_channels : (s.setTables x).channels = s.channels := rfl
@[simp] theorem State.setTables_depth : (s.setTables x).depth = s.depth := rfl
@[simp] theorem State.setTables_rod : (s.setTables x).rod = s.rod := rfl
@[simp] theorem State.setTables_circ : (s.setTables x).circ = s.circ := rfl
@[simp] theorem State.setTables_lag : (s.setTables x).lag = s.lag := rfl
@[simp] theorem State.setTables_interval : (s.setTables x).interval = s.interval := rfl
@[simp] theorem State.setTables_bill : (s.setTables x).bill = s.bill := rfl
@[simp] theorem State.setTables_event : (s.setTables x).event = s.event := rfl
@[simp] theorem State.setTables_gov : (s.setTables x).gov = s.gov := rfl
@[simp] theorem State.setTables_tables : (s.setTables x).tables = x := rfl
@[simp] theorem State.setTables_setTables (y : Vector Table 9) : (s.setTables x).setTables y = s.setTables y := rfl

end

end Sys2Proof.Machine
end

