-- ==== Sys2Proof/Laws/Ops.lean ====
section
/-! SUPPORT. What occurrences and reports can do, said once: they touch the event unit, the STATUS due flag and the
waiting injections, and nothing else. -/

namespace Sys2Proof.Machine

/-- Only the event unit, the STATUS due flag and the waiting injections differ; injections stay within their 4 places
and change in GOVERN only; counts stay within 255. -/
structure EventOnly (s t : State) : Prop where
  now : t.now = s.now
  pending : t.pending = s.pending
  noticeOrder : t.noticeOrder = s.noticeOrder
  line : t.line = { s.line with statusDue := t.line.statusDue, injections := t.line.injections }
  channels : t.channels = s.channels
  depth : t.depth = s.depth
  rod : t.rod = s.rod
  circ : t.circ = s.circ
  lag : t.lag = s.lag
  interval : t.interval = s.interval
  bill : t.bill = s.bill
  gov : t.gov = s.gov
  tables : t.tables = s.tables
  size : s.line.injections.length ≤ 4 → t.line.injections.length ≤ 4
  quiet : s.line.mode ≠ .govern → t.line.injections = s.line.injections
  counts : (∀ src : Source, s.event.accounts[src].count ≤ 255) → ∀ src : Source, t.event.accounts[src].count ≤ 255

theorem EventOnly.refl (s : State) : EventOnly s s where
  now := rfl
  pending := rfl
  noticeOrder := rfl
  line := rfl
  channels := rfl
  depth := rfl
  rod := rfl
  circ := rfl
  lag := rfl
  interval := rfl
  bill := rfl
  gov := rfl
  tables := rfl
  size := id
  quiet := fun _ => rfl
  counts := id

theorem EventOnly.mode {s t : State} (h : EventOnly s t) : t.line.mode = s.line.mode := by rw [h.line]

theorem EventOnly.trans {s t u : State} (h : EventOnly s t) (k : EventOnly t u) : EventOnly s u where
  now := k.now.trans h.now
  pending := k.pending.trans h.pending
  noticeOrder := k.noticeOrder.trans h.noticeOrder
  line := by rw [k.line, h.line]
  channels := k.channels.trans h.channels
  depth := k.depth.trans h.depth
  rod := k.rod.trans h.rod
  circ := k.circ.trans h.circ
  lag := k.lag.trans h.lag
  interval := k.interval.trans h.interval
  bill := k.bill.trans h.bill
  gov := k.gov.trans h.gov
  tables := k.tables.trans h.tables
  size := k.size ∘ h.size
  quiet := fun m => (k.quiet (h.mode ▸ m)).trans (h.quiet m)
  counts := k.counts ∘ h.counts

/-- A choice between two such states is such a state. -/
theorem EventOnly.ite {s t u : State} {c : Prop} [Decidable c] (h : EventOnly s t) (k : EventOnly s u) :
    EventOnly s (if c then t else u) := by
  split <;> assumption

/-- Writing the event unit alone. -/
theorem EventOnly.ofEvent (s : State) (e : EventState)
    (h : (∀ src : Source, s.event.accounts[src].count ≤ 255) → ∀ src : Source, e.accounts[src].count ≤ 255) :
    EventOnly s (s.setEvent e) :=
  { EventOnly.refl s with
    now := rfl, pending := rfl, noticeOrder := rfl, line := rfl, channels := rfl, depth := rfl, rod := rfl
    circ := rfl, lag := rfl, interval := rfl, bill := rfl, gov := rfl, tables := rfl
    size := id, quiet := fun _ => rfl, counts := h }

/-- Replacing an account by one whose count is within 255. -/
theorem setAccount_eventOnly (src : Source) (a : Account) (s : State)
    (h : (∀ q : Source, s.event.accounts[q].count ≤ 255) → a.count ≤ 255) :
    EventOnly s (setAccount src a s) := by
  refine EventOnly.ofEvent s _ fun hs q => ?_
  show (s.event.accounts.set src a)[q].count ≤ 255
  simp only [Fin.getElem_fin, Vector.getElem_set]
  split
  · exact h hs
  · exact hs q

theorem setClass_eventOnly (k : AlarmClass) (c : ClassState) (s : State) : EventOnly s (setClass k c s) :=
  EventOnly.ofEvent s _ fun h => h

/-! ## Occurrences -/

theorem takeOccurrence_eventOnly (o : Occ) (s : State) : EventOnly s (takeOccurrence o s) :=
  setAccount_eventOnly _ _ _ fun _ => Nat.min_le_left _ _

/-- An injection list keeps its 4 places (R19). -/
theorem placeInjection_length (i : Injection) (l : List Injection) (h : l.length ≤ 4) :
    (placeInjection i l).length ≤ 4 := by
  unfold placeInjection
  split
  · simpa using h
  · split
    · simp; omega
    · simp; omega

theorem inject_eventOnly (r : Role) (b : Nat × Nat) (v : Nat) (s : State) (g : s.line.mode = .govern) :
    EventOnly s (inject r b v s) :=
  { EventOnly.refl s with
    now := rfl, pending := rfl, noticeOrder := rfl, line := rfl, channels := rfl, depth := rfl, rod := rfl
    circ := rfl, lag := rfl, interval := rfl, bill := rfl, gov := rfl, tables := rfl
    size := placeInjection_length _ _, quiet := fun m => absurd g m, counts := id }

/-- A STATUS cause sets the STATUS due flag and nothing else (R24). -/
theorem statusDue_eventOnly (c : StatusCause) (s : State) : EventOnly s (statusDue c s) :=
  { EventOnly.refl s with
    now := rfl, pending := rfl, noticeOrder := rfl, line := rfl, channels := rfl, depth := rfl, rod := rfl
    circ := rfl, lag := rfl, interval := rfl, bill := rfl, gov := rfl, tables := rfl
    size := id, quiet := fun _ => rfl, counts := id }

section
variable {occ : Occ → State → State} (hocc : ∀ o s, EventOnly s (occ o s))
include hocc

theorem stopPumpWith_eventOnly (r : Role) (s : State) : EventOnly s (stopPumpWith occ r s) := by
  unfold stopPumpWith
  split
  · exact inject_eventOnly _ _ _ _ ‹_›
  · exact hocc _ s
  · exact EventOnly.refl s

theorem activationNoticeWith_eventOnly (k : AlarmClass) (s : State) :
    EventOnly s (activationNoticeWith occ k s) :=
  EventOnly.ite ((stopPumpWith_eventOnly hocc _ _).trans (stopPumpWith_eventOnly hocc _ _)) (EventOnly.refl s)

theorem raiseClassWith_eventOnly (k : AlarmClass) (s : State) : EventOnly s (raiseClassWith occ k s) :=
  EventOnly.ite (EventOnly.refl s)
    (((setClass_eventOnly _ _ _).trans (statusDue_eventOnly _ _)).trans
      (activationNoticeWith_eventOnly hocc _ _))

theorem occurWith_eventOnly (o : Occ) (s : State) : EventOnly s (occurWith occ o s) := by
  unfold occurWith
  split
  · exact takeOccurrence_eventOnly o s
  · exact (takeOccurrence_eventOnly o s).trans (raiseClassWith_eventOnly hocc _ _)

end

theorem occurFuel_eventOnly (n : Nat) : ∀ o s, EventOnly s (occurFuel n o s) := by
  induction n with
  | zero => exact takeOccurrence_eventOnly
  | succ n ih => exact occurWith_eventOnly ih

/-- An occurrence with all it brings (R168). -/
theorem raise_eventOnly (o : Occ) (s : State) : EventOnly s (raise o s) := occurFuel_eventOnly _ o s

theorem occur_eventOnly (src : Source) (d : BitVec 32) (s : State) : EventOnly s (occur src d s) :=
  raise_eventOnly _ s

theorem occurNat_eventOnly (src : Source) (d : Nat) (s : State) : EventOnly s (occurNat src d s) :=
  raise_eventOnly _ s

/-! ## Reports -/

theorem lowerClass_eventOnly (k : AlarmClass) (s : State) : EventOnly s (lowerClass k s) :=
  EventOnly.ite (EventOnly.refl s) ((setClass_eventOnly _ _ _).trans (statusDue_eventOnly _ _))

/-- A condition report with all it brings (R169). -/
theorem report_eventOnly (src : Source) (b : Bool) (s : State) : EventOnly s (report src b s) := by
  unfold report
  split
  · exact EventOnly.refl s
  · have h := setAccount_eventOnly src { s.event.accounts[src] with cond := b } s fun hs => hs src
    dsimp only
    split
    · exact h
    · refine h.trans ?_
      split
      · exact raiseClassWith_eventOnly raise_eventOnly _ _
      · exact lowerClass_eventOnly _ _

theorem setCondition_eventOnly (src : Source) (b : Bool) (d : BitVec 32) (s : State) :
    EventOnly s (setCondition src b d s) :=
  EventOnly.ite ((report_eventOnly _ _ _).trans (occur_eventOnly _ _ _)) (report_eventOnly _ _ _)

/-! ## What conditions and classes are afterwards -/

/-- Replacing an account by one of the same condition leaves every condition. -/
theorem setAccount_cond (src : Source) (a : Account) (s : State) (h : a.cond = cond s src) (q : Source) :
    cond (setAccount src a s) q = cond s q := by
  show ((s.event.accounts.set src a)[q]).cond = _
  simp only [Fin.getElem_fin, Vector.getElem_set]
  split
  · next e => rw [h]; congr 1; exact Fin.ext e
  · rfl

theorem takeOccurrence_cond (o : Occ) (s : State) (q : Source) : cond (takeOccurrence o s) q = cond s q :=
  setAccount_cond o.src (s.event.accounts[o.src].take o (jobTime s)) s rfl q

/-- No STATUS cause changes a condition. -/
theorem statusDue_cond (c : StatusCause) (s : State) (q : Source) : cond (statusDue c s) q = cond s q := rfl

section
variable {occ : Occ → State → State} (hocc : ∀ o s q, cond (occ o s) q = cond s q)
include hocc

theorem stopPumpWith_cond (r : Role) (s : State) (q : Source) : cond (stopPumpWith occ r s) q = cond s q := by
  unfold stopPumpWith
  split
  · rfl
  · exact hocc _ _ _
  · rfl

theorem activationNoticeWith_cond (k : AlarmClass) (s : State) (q : Source) :
    cond (activationNoticeWith occ k s) q = cond s q := by
  unfold activationNoticeWith
  split
  · rw [stopPumpWith_cond hocc, stopPumpWith_cond hocc]
  · rfl

theorem raiseClassWith_cond (k : AlarmClass) (s : State) (q : Source) :
    cond (raiseClassWith occ k s) q = cond s q := by
  unfold raiseClassWith
  split
  · rfl
  · rw [activationNoticeWith_cond hocc]; rfl

theorem occurWith_cond (o : Occ) (s : State) (q : Source) : cond (occurWith occ o s) q = cond s q := by
  unfold occurWith
  split
  · exact takeOccurrence_cond o s q
  · rw [raiseClassWith_cond hocc, takeOccurrence_cond]

end

theorem occurFuel_cond (n : Nat) : ∀ o s q, cond (occurFuel n o s) q = cond s q := by
  induction n with
  | zero => exact takeOccurrence_cond
  | succ n ih => exact occurWith_cond ih

/-- No occurrence changes a condition. -/
theorem raise_cond (o : Occ) (s : State) (q : Source) : cond (raise o s) q = cond s q := occurFuel_cond _ o s q

/-- After a report the source's condition is the one reported, and no other has changed (R169). -/
theorem report_cond (src : Source) (b : Bool) (s : State) (q : Source) :
    cond (report src b s) q = if q = src then b else cond s q := by
  have base : cond (setAccount src { s.event.accounts[src] with cond := b } s) q = if q = src then b else cond s q := by
    show ((s.event.accounts.set src _)[q]).cond = _
    simp only [Fin.getElem_fin, Vector.getElem_set]
    by_cases e : q = src
    · subst e; simp
    · rw [if_neg e, if_neg fun h => e (Fin.ext h.symm)]; rfl
  unfold report
  split
  · next h =>
    by_cases e : q = src
    · rw [if_pos e, e, h]
    · rw [if_neg e]
  · dsimp only
    split
    · exact base
    · split
      · next hb => rw [raiseClassWith_cond raise_cond, base]
      · rw [show ∀ k t, cond (lowerClass k t) q = cond t q from fun k t => by
          unfold lowerClass
          dsimp only
          split
          · rfl
          · rw [statusDue_cond]; rfl, base]

/-- The condition of a source after it is set with an occurrence is the one given (R169). -/
theorem setCondition_cond (src : Source) (b : Bool) (d : BitVec 32) (s : State) (q : Source) :
    cond (setCondition src b d s) q = if q = src then b else cond s q := by
  unfold setCondition
  split
  · rw [show ∀ t, cond (occur src d t) q = cond t q from fun t => raise_cond _ t q, report_cond]
  · exact report_cond src b s q

/-! ## What accounts are afterwards -/

/-- A source that no occurrence brings with it: any but PUMP_CLAMP. -/
def Apart (q : Source) : Prop := q ≠ srcPumpClamp

theorem setAccount_account (src : Source) (a : Account) (s : State) (q : Source) :
    (setAccount src a s).event.accounts[q] = if q = src then a else s.event.accounts[q] := by
  show (s.event.accounts.set src a)[q] = _
  simp only [Fin.getElem_fin, Vector.getElem_set]
  by_cases e : q = src
  · subst e; simp
  · rw [if_neg e, if_neg fun h => e (Fin.ext h.symm)]

/-- What an occurrence leaves in the account of a source apart (R168). -/
def AccountAfter (o : Occ) (s t : State) : Prop :=
  ∀ q, Apart q → t.event.accounts[q] =
    if q = o.src then s.event.accounts[q].take o (jobTime s) else s.event.accounts[q]

theorem takeOccurrence_account (o : Occ) (s : State) (q : Source) :
    (takeOccurrence o s).event.accounts[q] =
      if q = o.src then s.event.accounts[q].take o (jobTime s) else s.event.accounts[q] := by
  unfold takeOccurrence
  rw [setAccount_account]
  split
  · next e => subst e; rfl
  · rfl

section
variable {occ : Occ → State → State} (hocc : ∀ o s, AccountAfter o s (occ o s))
include hocc

theorem stopPumpWith_account (r : Role) (s : State) (q : Source) (h : Apart q) :
    (stopPumpWith occ r s).event.accounts[q] = s.event.accounts[q] := by
  unfold stopPumpWith
  split
  · rfl
  · exact (hocc _ s q h).trans (if_neg h)
  · rfl

theorem activationNoticeWith_account (k : AlarmClass) (s : State) (q : Source) (h : Apart q) :
    (activationNoticeWith occ k s).event.accounts[q] = s.event.accounts[q] := by
  unfold activationNoticeWith
  split
  · rw [stopPumpWith_account hocc _ _ q h, stopPumpWith_account hocc _ _ q h]
  · rfl

theorem raiseClassWith_account (k : AlarmClass) (s : State) (q : Source) (h : Apart q) :
    (raiseClassWith occ k s).event.accounts[q] = s.event.accounts[q] := by
  unfold raiseClassWith
  split
  · rfl
  · rw [activationNoticeWith_account hocc _ _ q h]; rfl

theorem occurWith_account (o : Occ) (s : State) : AccountAfter o s (occurWith occ o s) := by
  intro q h
  unfold occurWith
  split
  · exact takeOccurrence_account o s q
  · exact (raiseClassWith_account hocc _ _ q h).trans (takeOccurrence_account o s q)

end

theorem occurFuel_account (n : Nat) : ∀ o s, AccountAfter o s (occurFuel n o s) := by
  induction n with
  | zero => exact fun o s q _ => takeOccurrence_account o s q
  | succ n ih => exact occurWith_account ih

/-- An occurrence is taken into its source's account, and no other source apart is touched (R168). -/
theorem raise_account (o : Occ) (s : State) : AccountAfter o s (raise o s) := occurFuel_account _ o s

/-- A report changes the condition of its source and nothing else of a source apart (R169). -/
theorem report_account (src : Source) (b : Bool) (s : State) (q : Source) (h : Apart q) :
    (report src b s).event.accounts[q] =
      if q = src then { s.event.accounts[q] with cond := b } else s.event.accounts[q] := by
  have base : (setAccount src { s.event.accounts[src] with cond := b } s).event.accounts[q] =
      if q = src then { s.event.accounts[q] with cond := b } else s.event.accounts[q] := by
    rw [setAccount_account]
    split
    · next e => subst e; rfl
    · rfl
  unfold report
  split
  · next e =>
    split
    · next e' => subst e'; subst e; rfl
    · rfl
  · dsimp only
    split
    · exact base
    · split
      · exact (raiseClassWith_account raise_account _ _ q h).trans base
      · refine Eq.trans ?_ base
        unfold lowerClass
        dsimp only
        split
        · rfl
        · rfl

/-! ## The STATUS due flag -/

/-- A STATUS due flag that is set stays as it is, cause included (R24). -/
def KeepsDue (s t : State) : Prop := ∀ c, s.line.statusDue = some c → t.line.statusDue = some c

section
variable {occ : Occ → State → State} (hocc : ∀ o s, KeepsDue s (occ o s))
include hocc

omit hocc in
theorem statusDue_keepsDue (c : StatusCause) (s : State) : KeepsDue s (statusDue c s) := by
  intro d h
  show some (s.line.statusDue.getD c) = some d
  rw [h]; rfl

theorem stopPumpWith_keepsDue (r : Role) (s : State) : KeepsDue s (stopPumpWith occ r s) := by
  intro c h
  unfold stopPumpWith
  split
  · exact h
  · exact hocc _ s c h
  · exact h

theorem raiseClassWith_keepsDue (k : AlarmClass) (s : State) : KeepsDue s (raiseClassWith occ k s) := by
  intro c h
  unfold raiseClassWith activationNoticeWith
  split
  · exact h
  · have h1 := statusDue_keepsDue .cls (setClass k .active s) c h
    split
    · exact stopPumpWith_keepsDue hocc _ _ c (stopPumpWith_keepsDue hocc _ _ c h1)
    · exact h1

theorem occurWith_keepsDue (o : Occ) (s : State) : KeepsDue s (occurWith occ o s) := by
  intro c h
  unfold occurWith
  split
  · exact h
  · exact raiseClassWith_keepsDue hocc _ _ c h

end

theorem occurFuel_keepsDue (n : Nat) : ∀ o s, KeepsDue s (occurFuel n o s) := by
  induction n with
  | zero => exact fun o s c h => h
  | succ n ih => exact occurWith_keepsDue ih

/-- An occurrence keeps a STATUS due flag that is set. -/
theorem raise_keepsDue (o : Occ) (s : State) : KeepsDue s (raise o s) := occurFuel_keepsDue _ o s

/-- After a cause STATUS is due, with the first cause since it was last due (R24). -/
theorem statusDue_due (c : StatusCause) (s : State) :
    (statusDue c s).line.statusDue = some (s.line.statusDue.getD c) := rfl

/-! ## Alarm classes (R172) -/

/-- Classes are left as they are or become ACTIVE by a source of `srcs` that is routed to them; routing is kept
(R172). -/
structure ClassesRise (srcs : Source → Prop) (s t : State) : Prop where
  tables : t.tables = s.tables
  rise : ∀ j : AlarmClass, t.event.classes[j] = s.event.classes[j] ∨
    (t.event.classes[j] = .active ∧ ∃ q, srcs q ∧ routeOf s q = some j)

/-- Routing is the tables' affair. -/
theorem routeOf_congr {s t : State} (h : t.tables = s.tables) (q : Source) : routeOf t q = routeOf s q := by
  unfold routeOf activeCopy
  rw [h]

theorem ClassesRise.refl (srcs : Source → Prop) (s : State) : ClassesRise srcs s s := ⟨rfl, fun _ => .inl rfl⟩

theorem ClassesRise.trans {p : Source → Prop} {s t u : State} (h : ClassesRise p s t) (k : ClassesRise p t u) :
    ClassesRise p s u where
  tables := k.tables.trans h.tables
  rise := fun j => by
    rcases k.rise j with a | ⟨a, q, b, c⟩
    · rcases h.rise j with d | ⟨d, e⟩
      · exact .inl (a.trans d)
      · exact .inr ⟨a.trans d, e⟩
    · exact .inr ⟨a, q, b, (routeOf_congr h.tables q) ▸ c⟩

theorem ClassesRise.mono {p r : Source → Prop} {s t : State} (h : ClassesRise p s t) (m : ∀ q, p q → r q) :
    ClassesRise r s t :=
  ⟨h.tables, fun j => (h.rise j).imp id fun ⟨a, q, b, c⟩ => ⟨a, q, m q b, c⟩⟩

theorem ClassesRise.of_eq {p : Source → Prop} {s t : State} (h : t.tables = s.tables)
    (k : t.event.classes = s.event.classes) : ClassesRise p s t := ⟨h, fun j => .inl (by rw [k])⟩

/-- What changed before without the classes does not matter. -/
theorem ClassesRise.after {p : Source → Prop} {s t u : State} (h : ClassesRise p t u) (a : t.tables = s.tables)
    (b : t.event.classes = s.event.classes) : ClassesRise p s u := (ClassesRise.of_eq a b).trans h

/-- The source that an occurrence can bring with it (R183). -/
def Brought (q : Source) : Prop := q = srcPumpClamp

theorem setClass_get (k : AlarmClass) (c : ClassState) (s : State) (j : AlarmClass) :
    (setClass k c s).event.classes[j] = if j = k then c else s.event.classes[j] := by
  show (s.event.classes.set k c)[j] = _
  simp only [Fin.getElem_fin, Vector.getElem_set]
  by_cases e : j = k
  · subst e; simp
  · rw [if_neg e, if_neg fun h => e (Fin.ext h.symm)]

section
variable {occ : Occ → State → State}
  (hocc : ∀ o s, ClassesRise (fun q => q = o.src ∨ Brought q) s (occ o s))
include hocc

theorem stopPumpWith_classes (r : Role) (s : State) : ClassesRise Brought s (stopPumpWith occ r s) := by
  unfold stopPumpWith
  split
  · exact .of_eq rfl rfl
  · exact (hocc _ s).mono fun q h => h.elim id id
  · exact .refl _ s

theorem activationNoticeWith_classes (k : AlarmClass) (s : State) :
    ClassesRise Brought s (activationNoticeWith occ k s) := by
  unfold activationNoticeWith
  split
  · exact (stopPumpWith_classes hocc _ _).trans (stopPumpWith_classes hocc _ _)
  · exact .refl _ s

/-- Raising a class leaves it ACTIVE. -/
theorem raiseClassWith_classes (k : AlarmClass) (s : State) (p : Source → Prop) (hp : ∀ q, Brought q → p q)
    (src : Source) (hs : p src) (hr : routeOf s src = some k) :
    ClassesRise p s (raiseClassWith occ k s) ∧ (raiseClassWith occ k s).event.classes[k] = .active := by
  unfold raiseClassWith
  split
  · exact ⟨.refl _ s, ‹_›⟩
  · have h1 : ClassesRise Brought (setClass k .active s)
        (activationNoticeWith occ k (statusDue .cls (setClass k .active s))) :=
      (activationNoticeWith_classes hocc k _).after rfl rfl
    constructor
    · refine ClassesRise.trans (t := setClass k .active s) ⟨rfl, fun j => ?_⟩ (h1.mono hp)
      rw [setClass_get]
      split
      · next e => exact .inr ⟨rfl, src, hs, e ▸ hr⟩
      · exact .inl rfl
    · rcases h1.rise k with a | ⟨a, _⟩
      · rw [a, setClass_get, if_pos rfl]
      · exact a

theorem occurWith_classes (o : Occ) (s : State) :
    ClassesRise (fun q => q = o.src ∨ Brought q) s (occurWith occ o s) ∧
      ∀ k, routeOf s o.src = some k → (occurWith occ o s).event.classes[k] = .active := by
  unfold occurWith
  cases e : routeOf s o.src with
  | none => exact ⟨.of_eq rfl rfl, fun k g => by cases g⟩
  | some k =>
    have hk := raiseClassWith_classes hocc k (takeOccurrence o s) (fun q => q = o.src ∨ Brought q) (fun q => .inr)
      o.src (.inl rfl) e
    exact ⟨hk.1.after rfl rfl, fun j g => by cases g; exact hk.2⟩

end

theorem occurFuel_classes (n : Nat) : ∀ o s, ClassesRise (fun q => q = o.src ∨ Brought q) s (occurFuel n o s) := by
  induction n with
  | zero => exact fun o s => .of_eq rfl rfl
  | succ n ih => exact fun o s => (occurWith_classes ih o s).1

/-- An occurrence makes the class of its source ACTIVE; other classes stay or become ACTIVE by what it brings (R172). -/
theorem raise_classes (o : Occ) (s : State) :
    ClassesRise (fun q => q = o.src ∨ Brought q) s (raise o s) ∧
      ∀ k, routeOf s o.src = some k → (raise o s).event.classes[k] = .active :=
  occurWith_classes (occurFuel_classes _) o s

/-- A condition that has become true makes the class of its source ACTIVE (R172). -/
theorem report_true_classes (src : Source) (k : AlarmClass) (s : State) (h : cond s src = false)
    (r : routeOf s src = some k) :
    ClassesRise (fun q => q = src ∨ Brought q) s (report src true s) ∧
      (report src true s).event.classes[k] = .active := by
  have hk := raiseClassWith_classes (fun o s => (raise_classes o s).1) k
    (setAccount src { s.event.accounts[src] with cond := true } s)
    (fun q => q = src ∨ Brought q) (fun q => .inr) src (.inl rfl) r
  unfold report
  rw [if_neg (by simp [h])]
  dsimp only
  rw [show routeOf (setAccount src { s.event.accounts[src] with cond := true } s) src = some k from r]
  exact ⟨hk.1.after rfl rfl, hk.2⟩

/-- The state of a class after a report of false of a source routed to it (R172). -/
theorem report_false_classes (src : Source) (k : AlarmClass) (s : State) (h : cond s src = true)
    (r : routeOf s src = some k) :
    let s1 := setAccount src { s.event.accounts[src] with cond := false } s
    let c := fallenClass s.event.classes[k] (latched s k) (routedTrue s1 k)
    report src false s = if c = s.event.classes[k] then s1 else statusDue .cls (setClass k c s1) := by
  unfold report
  rw [if_neg (by simp [h])]
  dsimp only
  rw [show routeOf (setAccount src { s.event.accounts[src] with cond := false } s) src = some k from r]
  rfl

/-! ## The BYPASS output (R13) -/

/-- Driving the output writes the output and nothing else (R13). -/
@[simp] theorem driveBypass_line (s : State) :
    (driveBypass s).line = { s.line with bypassOut := bypassAsserted s } := rfl
@[simp] theorem driveBypass_event (s : State) : (driveBypass s).event = s.event := rfl
@[simp] theorem driveBypass_tables (s : State) : (driveBypass s).tables = s.tables := rfl

/-- The output is as R13 gives it once it is driven. -/
theorem driveBypass_out (s : State) : (driveBypass s).line.bypassOut = bypassAsserted (driveBypass s) := rfl

/-! ## Requests -/

/-- What taking a request comes to: nothing where none of the kind can be taken; else BAD_REQUEST, BUSY, or what the
request's own rule decides (R20, R149, R198). -/
theorem takeRequest_cases (kind countFits : Nat → Bool) (whileEnding : Bool)
    (body : Frame → State → State × Option Reply) (s : State) :
    takeRequest kind countFits whileEnding body s = s ∨
    ∃ f rest, s.line.requests = f :: rest ∧ decoderFree s = true ∧ kind f.tag.toNat = true ∧
      ((∃ r, takeRequest kind countFits whileEnding body s =
          placeResponse (responseFrame f.tag f.values r) (s.setLine { s.line with requests := rest })) ∨
        (countFits f.values.length = true ∧
          ((∃ r, (body f (s.setLine { s.line with requests := rest })).2 = some r ∧
              takeRequest kind countFits whileEnding body s =
                placeResponse (responseFrame f.tag f.values r)
                  (body f (s.setLine { s.line with requests := rest })).1) ∨
            ((body f (s.setLine { s.line with requests := rest })).2 = none ∧
              takeRequest kind countFits whileEnding body s =
                (body f (s.setLine { s.line with requests := rest })).1)))) := by
  unfold takeRequest
  split
  · exact .inl rfl
  · next f rest e =>
    split
    · next hk =>
      rw [Bool.and_eq_true] at hk
      refine .inr ⟨f, rest, e, hk.1, hk.2, ?_⟩
      dsimp only
      split
      · exact .inl ⟨_, rfl⟩
      · next hc =>
        split
        · exact .inl ⟨_, rfl⟩
        · refine .inr ⟨by simpa using hc, ?_⟩
          split
          · next h => exact .inl ⟨_, by rw [h], by rw [h]⟩
          · next h => exact .inr ⟨by rw [h], by rw [h]⟩
    · exact .inl rfl

/-- A request that can be taken, whose COUNT fits and which the job state lets through, is carried out by its own rule
and answered (R198). -/
theorem takeRequest_carried {kind countFits : Nat → Bool} {whileEnding : Bool}
    {body : Frame → State → State × Option Reply} {s : State} {f : Frame} {rest : List Frame}
    (head : s.line.requests = f :: rest) (free : decoderFree s = true) (hk : kind f.tag.toNat = true)
    (hc : countFits f.values.length = true) (job : s.bill.job ≠ .ending ∨ whileEnding = true)
    {u : State} {r : Reply} (hb : body f (s.setLine { s.line with requests := rest }) = (u, some r)) :
    takeRequest kind countFits whileEnding body s = placeResponse (responseFrame f.tag f.values r) u := by
  have hj : ¬(s.bill.job = .ending ∧ whileEnding = false) := by
    rintro ⟨a, b⟩
    rcases job with h | h
    · exact h a
    · simp [h] at b
  simp only [takeRequest, head, free, hk, hc, Bool.and_self, if_true, hj, if_false, hb,
    Bool.not_true, Bool.false_eq_true]

end Sys2Proof.Machine
end

