-- ==== Sys2Proof/Laws/Admission.lean ====
section
/-! SUPPORT. What an admission of records can do, said once: records move from their producers to the end of the record
queue, and RECORD_QUEUE_FULL occurs. -/

namespace Sys2Proof.Machine

/-- Records have moved from their producers to the end of the record queue, and occurrences may have come with it: the
clock, the queue of commands, the channels, the tables, the depth, circulation and interval units and the governor are as
they were, conditions too; sizes are kept. -/
structure Admits (s t : State) : Prop where
  now : t.now = s.now
  pending : t.pending = s.pending
  noticeOrder : t.noticeOrder = s.noticeOrder
  channels : t.channels = s.channels
  depth : t.depth = s.depth
  circ : t.circ = s.circ
  interval : t.interval = s.interval
  gov : t.gov = s.gov
  tables : t.tables = s.tables
  line : t.line = { s.line with
    statusDue := t.line.statusDue, injections := t.line.injections, records := t.line.records,
    serial := t.line.serial, highWater := t.line.highWater }
  rod : t.rod = { s.rod with out := t.rod.out }
  bill : t.bill = { s.bill with outBuffer := t.bill.outBuffer, ending := t.bill.ending }
  conds : ∀ q, cond t q = cond s q
  grows : s.line.records <+: t.line.records
  records : s.line.records.length ≤ 64 → t.line.records.length ≤ 64
  serial : s.line.serial ≤ 255 → t.line.serial ≤ 255
  highWater : s.line.records.length ≤ 64 → s.line.highWater ≤ 64 → t.line.highWater ≤ 64
  out : t.rod.out <:+ s.rod.out
  ticket : t.bill.outBuffer = s.bill.outBuffer ∨ t.bill.outBuffer = none
  ending : t.bill.ending = s.bill.ending ∨ t.bill.ending = s.bill.ending.map fun w => { w with lagDone := true }
  queue : t.lag.queue <:+ s.lag.queue
  hold : t.lag.hold <:+ s.lag.hold
  size : s.line.injections.length ≤ 4 → t.line.injections.length ≤ 4
  quiet : s.line.mode ≠ .govern → t.line.injections = s.line.injections
  counts : (∀ src : Source, s.event.accounts[src].count ≤ 255) → ∀ src : Source, t.event.accounts[src].count ≤ 255

theorem Admits.mode {s t : State} (h : Admits s t) : t.line.mode = s.line.mode := by rw [h.line]

/-- Occurrences and reports that keep the conditions. -/
theorem EventOnly.toAdmits {s t : State} (h : EventOnly s t) (c : ∀ q, cond t q = cond s q) : Admits s t where
  now := h.now
  pending := h.pending
  noticeOrder := h.noticeOrder
  channels := h.channels
  depth := h.depth
  circ := h.circ
  interval := h.interval
  gov := h.gov
  tables := h.tables
  line := by rw [h.line]
  rod := by rw [h.rod]
  bill := by rw [h.bill]
  conds := c
  grows := by rw [h.line]
  records := fun k => by rw [h.line]; exact k
  serial := fun k => by rw [h.line]; exact k
  highWater := fun _ k => by rw [h.line]; exact k
  out := by rw [h.rod]
  ticket := .inl (by rw [h.bill])
  ending := .inl (by rw [h.bill])
  queue := by rw [h.lag]
  hold := by rw [h.lag]
  size := h.size
  quiet := h.quiet
  counts := h.counts

theorem Admits.refl (s : State) : Admits s s := (EventOnly.refl s).toAdmits fun _ => rfl

theorem Admits.trans {s t u : State} (h : Admits s t) (k : Admits t u) : Admits s u where
  now := k.now.trans h.now
  pending := k.pending.trans h.pending
  noticeOrder := k.noticeOrder.trans h.noticeOrder
  channels := k.channels.trans h.channels
  depth := k.depth.trans h.depth
  circ := k.circ.trans h.circ
  interval := k.interval.trans h.interval
  gov := k.gov.trans h.gov
  tables := k.tables.trans h.tables
  line := by rw [k.line, h.line]
  rod := by rw [k.rod, h.rod]
  bill := by rw [k.bill, h.bill]
  conds := fun q => (k.conds q).trans (h.conds q)
  grows := h.grows.trans k.grows
  records := k.records ∘ h.records
  serial := k.serial ∘ h.serial
  highWater := fun a b => k.highWater (h.records a) (h.highWater a b)
  out := k.out.trans h.out
  ticket := by
    rcases k.ticket with a | a
    · rw [a]; exact h.ticket
    · exact .inr a
  ending := by
    rcases h.ending with a | a <;> rcases k.ending with b | b
    · exact .inl (b.trans a)
    · exact .inr (by rw [b, a])
    · exact .inr (b.trans a)
    · refine .inr (b.trans ?_)
      rw [a]; cases s.bill.ending <;> rfl
  queue := k.queue.trans h.queue
  hold := k.hold.trans h.hold
  size := k.size ∘ h.size
  quiet := fun m => (k.quiet (h.mode ▸ m)).trans (h.quiet m)
  counts := k.counts ∘ h.counts

/-- The frames of a record are as many as its contents give (R4). -/
@[simp] theorem recordFrames_length (n : Nat) (r : RecordBody) : (recordFrames n r).length = r.frames.length := by
  simp [recordFrames]

/-- A record enters at the end of the queue, within its 64 places (R22). -/
theorem enterRecord_admits (r : RecordBody) (s : State) (h : r.frames.length ≤ recordRoom s) :
    Admits s (enterRecord r s) :=
  { Admits.refl s with
    line := rfl
    grows := List.prefix_append _ _
    records := fun k => by
      show (s.line.records ++ recordFrames s.line.serial r).length ≤ 64
      unfold recordRoom at h
      simp; omega
    serial := fun _ => by show (s.line.serial + 1) % 256 ≤ 255; omega
    highWater := fun k l => by
      show (if r.type = 5 then (s.line.records ++ recordFrames s.line.serial r).length
        else max s.line.highWater (s.line.records ++ recordFrames s.line.serial r).length) ≤ 64
      unfold recordRoom at h
      simp only [List.length_append, recordFrames_length]
      split <;> omega
    size := id
    quiet := fun _ => rfl }

theorem flushCompletion_admits (s : State) : Admits s (flushCompletion s) := by
  unfold flushCompletion
  split
  · exact { Admits.refl s with
      bill := rfl, ending := .inr rfl, queue := List.suffix_refl _, hold := List.suffix_refl _ }
  · exact Admits.refl s

@[simp] theorem flushCompletion_line (s : State) : (flushCompletion s).line = s.line := by
  unfold flushCompletion; split <;> rfl

@[simp] theorem flushCompletion_event (s : State) : (flushCompletion s).event = s.event := by
  unfold flushCompletion; split <;> rfl

theorem setAccount_entered_admits (src : Source) (s : State) :
    Admits s (setAccount src s.event.accounts[src].entered s) :=
  (setAccount_eventOnly src _ s fun _ => Nat.zero_le _).toAdmits fun q => setAccount_cond src s.event.accounts[src].entered s rfl q

/-- A STRATA record leaves the lag unit without touching the line interface. -/
theorem releaseStrata_line (s : State) : (releaseOffered .strata s).line = s.line := by
  show (flushCompletion _).line = _
  rw [flushCompletion_line]; split <;> rfl

/-- A STRATA record leaves the lag unit without touching the event unit. -/
theorem releaseStrata_event (s : State) : (releaseOffered .strata s).event = s.event := by
  show (flushCompletion _).event = _
  rw [flushCompletion_event]; split <;> rfl

/-- What leaves a producer as its record enters. -/
theorem releaseOffered_admits (p : Producer) (s : State) : Admits s (releaseOffered p s) := by
  cases p with
  | rod => exact { Admits.refl s with rod := rfl, out := List.drop_suffix 1 _ }
  | ticket => exact { Admits.refl s with bill := rfl, ticket := .inr rfl }
  | strata =>
    show Admits s (flushCompletion _)
    refine Admits.trans ?_ (flushCompletion_admits _)
    split
    · next r rest e =>
      exact { Admits.refl s with hold := by rw [e]; exact List.suffix_cons _ _, queue := List.suffix_refl _ }
    · exact { Admits.refl s with queue := List.drop_suffix 1 _, hold := List.suffix_refl _ }
  | event =>
    show Admits s (match lowestPending s with | some src => _ | none => s)
    split
    · exact setAccount_entered_admits _ s
    · exact Admits.refl s
  | status =>
    exact { Admits.refl s with
      line := rfl, grows := List.prefix_refl _, records := id, serial := id, highWater := fun _ => id, size := id
      quiet := fun _ => rfl }

theorem admitOne_admits (p : Producer) (r : RecordBody) (s : State) (h : r.frames.length ≤ recordRoom s) :
    Admits s (admitOne p r s) :=
  (enterRecord_admits r s h).trans (releaseOffered_admits p _)

/-- A record that is admissible fits (R23). -/
theorem admissible_fits {s : State} {p : Producer} {r : RecordBody} (h : admissible s = some (p, r)) :
    r.frames.length ≤ recordRoom s := by
  have := Option.mem_filter_iff.1 (show (p, r) ∈ (firstOffer s).filter _ from h)
  simpa using this.2

theorem admission_admits (n : Nat) : ∀ judged s, Admits s (admission n judged s) := by
  induction n with
  | zero => exact fun _ s => Admits.refl s
  | succ n ih =>
    intro judged s
    unfold admission
    split
    · next p r e => exact (admitOne_admits p r s (admissible_fits e)).trans (ih _ _)
    · split
      · exact ((occurNat_eventOnly _ _ s).toAdmits fun q => raise_cond _ s q).trans (ih _ _)
      · exact Admits.refl s

/-- An admission (R23). -/
theorem admitRecords_admits (judged : List Producer) (s : State) : Admits s (admitRecords judged s) := admission_admits _ _ s

/-- The end of a step is its last state with an admission after it, or just that state (R23). -/
theorem admitted_admits (s t : State) : Admits t (admitted s t) := by
  unfold admitted
  split
  · exact Admits.refl t
  · exact admitRecords_admits _ t

/-- Where no producer has begun to wait, the end of a step changes nothing (R23). -/
theorem admitted_same {s t : State} (h : ∀ p, isWaiting t p = true → isWaiting s p = true) : admitted s t = t := by
  unfold admitted
  rw [if_pos]
  rw [List.all_eq_true]
  exact fun p hp => h p (List.mem_filter.1 hp).2

end Sys2Proof.Machine
end

