-- ==== Sys2Proof/Laws/Quiet.lean ====
section
/-! SUPPORT. What the units' operations never touch: the clock, the queue of commands, the FIFOs, slots and links of the line
interface, the channels, the tables; and the sizes they keep. -/

namespace Sys2Proof.Machine

/-- The sizes the units' own lists and the record queue stay within (R19, R22, R66, R70, R87, R116, R119, R167). -/
structure Sizes (s : State) : Prop where
  injections : s.line.injections.length ≤ 4
  records : s.line.records.length ≤ 64
  serial : s.line.serial ≤ 255
  highWater : s.line.highWater ≤ 64
  table : s.rod.table.length ≤ 256
  string : s.rod.string.length ≤ 250
  out : s.rod.out.length ≤ 16
  queue : s.lag.queue.length ≤ 64
  hold : s.lag.hold.length ≤ 4
  counts : ∀ src : Source, s.event.accounts[src].count ≤ 255

/-- The sizes are those of the line interface, the rod unit, the lag unit and the event unit. -/
theorem Sizes.same {s t : State} (l : t.line = s.line) (r : t.rod = s.rod) (g : t.lag = s.lag) (e : t.event = s.event)
    (z : Sizes s) : Sizes t := by
  obtain ⟨a, b, c, d, f, h, i, j, k, m⟩ := z
  constructor <;> first | rwa [l] | rwa [r] | rwa [g] | rwa [e]

/-- A unit's operation: in the line interface only the mode (from GOVERN to OBSERVE), the BYPASS output that follows
it, the STATUS due flag, the waiting injections and what has been judged within the step differ, and records have entered at the end of the record queue; the
clock, the queue of commands, the channels and the tables are as they were; sizes are kept. -/
structure Quiet (s t : State) : Prop where
  now : t.now = s.now
  pending : t.pending = s.pending
  noticeOrder : t.noticeOrder = s.noticeOrder
  line : t.line = { s.line with
    mode := t.line.mode, bypassOut := t.line.bypassOut, statusDue := t.line.statusDue,
    injections := t.line.injections, records := t.line.records, serial := t.line.serial
    highWater := t.line.highWater, judged := t.line.judged }
  channels : t.channels = s.channels
  tables : t.tables = s.tables
  mode : t.line.mode = s.line.mode ∨ (s.line.mode = .govern ∧ t.line.mode = .observe)
  out : s.line.bypassOut = bypassAsserted s → t.line.bypassOut = bypassAsserted t
  bypass : s.line.mode = .bypass → t.line.injections = s.line.injections
  sizes : Sizes s → Sizes t
  grows : s.line.records <+: t.line.records

theorem Quiet.refl (s : State) : Quiet s s where
  now := rfl
  pending := rfl
  noticeOrder := rfl
  line := rfl
  channels := rfl
  tables := rfl
  mode := .inl rfl
  out := id
  bypass := fun _ => rfl
  sizes := id
  grows := List.prefix_refl _

theorem Quiet.trans {s t u : State} (h : Quiet s t) (k : Quiet t u) : Quiet s u where
  now := k.now.trans h.now
  pending := k.pending.trans h.pending
  noticeOrder := k.noticeOrder.trans h.noticeOrder
  line := by rw [k.line, h.line]
  channels := k.channels.trans h.channels
  tables := k.tables.trans h.tables
  mode := by
    rcases h.mode with a | ⟨a, b⟩ <;> rcases k.mode with c | ⟨c, d⟩
    · exact .inl (c.trans a)
    · exact .inr ⟨a ▸ c, d⟩
    · exact .inr ⟨a, c.trans b⟩
    · exact .inr ⟨a, d⟩
  out := k.out ∘ h.out
  bypass := fun m => by
    have m' : t.line.mode = .bypass := by
      rcases h.mode with a | ⟨a, _⟩
      · exact a.trans m
      · rw [m] at a; cases a
    exact (k.bypass m').trans (h.bypass m)
  sizes := k.sizes ∘ h.sizes
  grows := h.grows.trans k.grows

theorem Quiet.ite {s t u : State} {c : Prop} [Decidable c] (h : Quiet s t) (k : Quiet s u) :
    Quiet s (if c then t else u) := by
  split <;> assumption

/-- An admission of records is quiet. -/
theorem Admits.toQuiet {s t : State} (h : Admits s t) : Quiet s t where
  now := h.now
  pending := h.pending
  noticeOrder := h.noticeOrder
  line := by rw [h.line]
  channels := h.channels
  tables := h.tables
  mode := .inl h.mode
  out := fun m => by unfold bypassAsserted inReset at *; rw [h.line]; exact m
  bypass := fun m => h.quiet (by rw [m]; decide)
  sizes := fun z =>
    { injections := h.size z.injections, records := h.records z.records, serial := h.serial z.serial
      highWater := h.highWater z.records z.highWater, table := by rw [h.rod]; exact z.table
      string := by rw [h.rod]; exact z.string, out := h.out.length_le.trans z.out
      queue := h.queue.length_le.trans z.queue, hold := h.hold.length_le.trans z.hold
      counts := h.counts z.counts }
  grows := h.grows

/-- Occurrences and reports are quiet. -/
theorem EventOnly.toQuiet {s t : State} (h : EventOnly s t) : Quiet s t where
  now := h.now
  pending := h.pending
  noticeOrder := h.noticeOrder
  line := by rw [h.line]
  channels := h.channels
  tables := h.tables
  mode := .inl h.mode
  out := fun m => by unfold bypassAsserted inReset at *; rw [h.line]; exact m
  bypass := fun m => h.quiet (by rw [m]; decide)
  sizes := fun z =>
    { injections := h.size z.injections, records := by rw [h.line]; exact z.records
      serial := by rw [h.line]; exact z.serial, highWater := by rw [h.line]; exact z.highWater
      table := by rw [h.rod]; exact z.table, string := by rw [h.rod]; exact z.string
      out := by rw [h.rod]; exact z.out, queue := by rw [h.lag]; exact z.queue
      hold := by rw [h.lag]; exact z.hold, counts := h.counts z.counts }
  grows := by rw [h.line]

/-! ## Writing one unit -/

section
variable (s : State)

theorem Quiet.depth (x : DepthState) : Quiet s (s.setDepth x) :=
  ⟨rfl, rfl, rfl, rfl, rfl, rfl, .inl rfl, id, fun _ => rfl, Sizes.same rfl rfl rfl rfl, List.prefix_refl _⟩

theorem Quiet.circ (x : CircState) : Quiet s (s.setCirc x) :=
  ⟨rfl, rfl, rfl, rfl, rfl, rfl, .inl rfl, id, fun _ => rfl, Sizes.same rfl rfl rfl rfl, List.prefix_refl _⟩

theorem Quiet.interval (x : IntervalState) : Quiet s (s.setInterval x) :=
  ⟨rfl, rfl, rfl, rfl, rfl, rfl, .inl rfl, id, fun _ => rfl, Sizes.same rfl rfl rfl rfl, List.prefix_refl _⟩

theorem Quiet.bill (x : BillState) : Quiet s (s.setBill x) :=
  ⟨rfl, rfl, rfl, rfl, rfl, rfl, .inl rfl, id, fun _ => rfl, Sizes.same rfl rfl rfl rfl, List.prefix_refl _⟩

theorem Quiet.gov (x : GovState) : Quiet s (s.setGov x) :=
  ⟨rfl, rfl, rfl, rfl, rfl, rfl, .inl rfl, id, fun _ => rfl, Sizes.same rfl rfl rfl rfl, List.prefix_refl _⟩

/-- Writing the rod unit within its sizes. -/
theorem Quiet.rod (x : RodState) (ht : s.rod.table.length ≤ 256 → x.table.length ≤ 256)
    (hs : s.rod.string.length ≤ 250 → x.string.length ≤ 250) (ho : s.rod.out.length ≤ 16 → x.out.length ≤ 16) :
    Quiet s (s.setRod x) :=
  ⟨rfl, rfl, rfl, rfl, rfl, rfl, .inl rfl, id, fun _ => rfl,
    fun z => ⟨z.1, z.2, z.3, z.4, ht z.5, hs z.6, ho z.7, z.8, z.9, z.10⟩, List.prefix_refl _⟩

/-- Writing the rod unit but for its table, its string and its out-queue. -/
theorem Quiet.rodSame (x : RodState) (ht : x.table = s.rod.table) (hs : x.string = s.rod.string)
    (ho : x.out = s.rod.out) : Quiet s (s.setRod x) :=
  Quiet.rod s x (by rw [ht]; exact id) (by rw [hs]; exact id) (by rw [ho]; exact id)

/-- Writing the lag unit within its sizes. -/
theorem Quiet.lag (x : LagState) (hq : s.lag.queue.length ≤ 64 → x.queue.length ≤ 64)
    (hh : s.lag.hold.length ≤ 4 → x.hold.length ≤ 4) : Quiet s (s.setLag x) :=
  ⟨rfl, rfl, rfl, rfl, rfl, rfl, .inl rfl, id, fun _ => rfl,
    fun z => ⟨z.1, z.2, z.3, z.4, z.5, z.6, z.7, hq z.8, hh z.9, z.10⟩, List.prefix_refl _⟩

theorem Quiet.occurNat (src : Source) (d : Nat) : Quiet s (occurNat src d s) := (occurNat_eventOnly _ _ _).toQuiet

theorem Quiet.raise (o : Occ) : Quiet s (raise o s) := (raise_eventOnly _ _).toQuiet

theorem Quiet.report (src : Source) (b : Bool) : Quiet s (report src b s) := (report_eventOnly _ _ _).toQuiet

theorem Quiet.setCondition (src : Source) (b : Bool) (d : BitVec 32) : Quiet s (setCondition src b d s) :=
  (setCondition_eventOnly _ _ _ _).toQuiet

theorem Quiet.inject (r : Role) (b : Nat × Nat) (v : Nat) (g : s.line.mode = .govern) : Quiet s (inject r b v s) :=
  (inject_eventOnly _ _ _ _ g).toQuiet

end

/-! ## The command governor -/

section
variable (s : State)

theorem remember_quiet (r : Role) (v : Option Nat) : Quiet s (remember r v s) := by
  unfold remember
  split
  · exact Quiet.gov _ _
  · exact Quiet.gov _ _
  · exact Quiet.refl s

theorem govOccur_quiet (src : Source) (d : BitVec 32) : Quiet s (govOccur src d s) := Quiet.raise s _

theorem holdStartRole_quiet (r : Role) : Quiet s (holdStartRole r s) := by
  unfold holdStartRole
  split
  · refine Quiet.ite ?_ (Quiet.refl s)
    split
    · exact Quiet.inject s _ _ _ ‹_›
    · exact govOccur_quiet s _ _
    · exact Quiet.refl s
  · exact Quiet.refl s

theorem holdStart_quiet : Quiet s (holdStart s) := (holdStartRole_quiet s _).trans (holdStartRole_quiet _ _)

theorem refuse_quiet (src : Source) (c a : Nat) (f : Frame) : Quiet s (refuse src c a f s).2 := govOccur_quiet s _ _

theorem governPump_quiet (r : Role) (f : Frame) (v : Nat) : Quiet s (governPump r f v s).2 := by
  unfold governPump
  split
  · exact remember_quiet s _ _
  · split
    · exact remember_quiet s _ _
    · split
      · exact (govOccur_quiet s _ _).trans (remember_quiet _ _ _)
      · exact (govOccur_quiet s _ _).trans (remember_quiet _ _ _)

theorem governHoist_quiet (f : Frame) (w : Word) : Quiet s (governHoist f w s).2 := by
  unfold governHoist
  split
  · exact Quiet.refl s
  · split
    · exact refuse_quiet s _ _ _ _
    · split
      · exact refuse_quiet s _ _ _ _
      · exact Quiet.refl s

theorem governSlips_quiet (f : Frame) (v : Nat) : Quiet s (governSlips f v s).2 := by
  unfold governSlips
  split
  · exact Quiet.refl s
  · split
    · exact refuse_quiet s _ _ _ _
    · split
      · dsimp only
        split
        · exact Quiet.refl s
        · exact refuse_quiet s _ _ _ _
      · exact refuse_quiet s _ _ _ _

theorem governTong_quiet (f : Frame) (v : Nat) : Quiet s (governTong f v s).2 := by
  unfold governTong
  split
  · exact refuse_quiet s _ _ _ _
  · exact Quiet.refl s

theorem claimHandler_quiet : Quiet s (claimHandler s) := Quiet.gov _ _

theorem governHandler_quiet (f : Frame) (v : Nat) : Quiet s (governHandler f v s).2 := by
  unfold governHandler
  split
  · exact Quiet.ite (claimHandler_quiet s) (Quiet.refl s)
  · exact Quiet.ite ((refuse_quiet s _ _ _ _).trans (claimHandler_quiet _)) (refuse_quiet s _ _ _ _)

theorem governRole_quiet (r : Role) (f : Frame) : Quiet s (governRole r f s).2 := by
  unfold governRole
  split
  · exact Quiet.refl s
  · split
    · exact governPump_quiet s _ _ _
    · exact governPump_quiet s _ _ _
    · exact governHoist_quiet s _ _
    · exact governSlips_quiet s _ _
    · exact governTong_quiet s _ _
    · exact governHandler_quiet s _ _

/-- Governing a frame (R179). -/
theorem govern_quiet (f : Frame) : Quiet s (govern f s).2 := by
  unfold govern
  split
  · exact governRole_quiet s _ _
  · exact Quiet.refl s

/-- An injection as its transmission begins (R182, R184). -/
theorem beginInjection_quiet (i : Injection) : Quiet s (beginInjection i s).2 := by
  unfold beginInjection
  dsimp only
  split
  · split
    · split
      · exact (govOccur_quiet s _ _).trans (remember_quiet _ _ _)
      · exact remember_quiet s _ _
    · exact remember_quiet s _ _
  · exact Quiet.refl s

theorem zoneEntered_quiet (v : Nat) : Quiet s (zoneEntered v s) := by
  unfold zoneEntered
  dsimp only
  refine Quiet.trans ?_ (govOccur_quiet _ _ _)
  split
  · exact Quiet.inject s _ _ _ ‹_›
  · exact Quiet.refl s

theorem blockSample_quiet (v : Nat) : Quiet s (blockSample v s) := by
  unfold blockSample
  dsimp only
  split
  · exact Quiet.gov _ _
  · split
    · split
      · exact ((Quiet.gov s _).trans (Quiet.gov _ _)).trans (zoneEntered_quiet _ _)
      · exact (Quiet.gov s _).trans (Quiet.gov _ _)
    · exact (Quiet.gov s _).trans (Quiet.gov _ _)

theorem handlerSample_quiet (v : Nat) : Quiet s (handlerSample v s) := by
  unfold handlerSample
  refine Quiet.ite (Quiet.ite (Quiet.gov _ _) ?_) (Quiet.refl s)
  exact Quiet.ite (Quiet.ite (Quiet.gov _ _) (Quiet.refl s)) (Quiet.gov _ _)

theorem governorBypass_quiet : Quiet s (governorBypass s) := Quiet.gov _ _

end

/-! ## The billing unit -/

section
variable (s : State)

theorem accrue_quiet (key q r : Nat) : Quiet s (accrue key q r s) := by
  unfold accrue
  split
  · exact Quiet.bill _ _
  · exact Quiet.refl s

theorem billInterval_quiet (n : BillingNotice) : Quiet s (billInterval n s) := by
  unfold billInterval
  refine Quiet.ite ?_ (Quiet.refl s)
  refine Quiet.trans ?_ (Quiet.bill _ _)
  exact Quiet.ite ((accrue_quiet s _ _ _).trans (accrue_quiet _ _ _ _)) (accrue_quiet s _ _ _)

theorem billSecond_quiet (a : Activity) : Quiet s (billSecond a s) := Quiet.ite (accrue_quiet s _ _ _) (Quiet.refl s)

theorem billWater_quiet (d : Nat) : Quiet s (billWater d s) := Quiet.ite (accrue_quiet s _ _ _) (Quiet.refl s)

theorem billRod_quiet : Quiet s (billRod s) := Quiet.ite (accrue_quiet s _ _ _) (Quiet.refl s)

theorem snapshot_quiet (b : Bool) : Quiet s (snapshot b s) := Quiet.bill _ _

theorem clearLines_quiet : Quiet s (clearLines s) := Quiet.bill _ _

end

/-! ## The lag unit -/

section
variable (s : State)

theorem releaseUnlagged_quiet (r : Strata) : Quiet s (releaseUnlagged r s) := by
  unfold releaseUnlagged
  split
  · refine Quiet.lag s _ (by exact id) fun _ => ?_
    simp; omega
  · exact Quiet.occurNat s _ _

theorem lagJoin_quiet (pages : List Page) (r : Strata) (h : s.lag.queue.length < 64) : Quiet s (lagJoin pages r s) := by
  unfold lagJoin
  refine Quiet.lag s _ (fun _ => ?_) (by exact id)
  simp; omega

theorem profileEnd_quiet (pages : List Page) (b : Nat) : Quiet s (profileEnd pages b s) :=
  Quiet.ite (Quiet.occurNat s _ _) (Quiet.refl s)

/-- A closed interval's record reaches the lag unit (R117). -/
theorem lagTake_quiet (r : Strata) : Quiet s (lagTake r s) := by
  unfold lagTake
  split
  · exact releaseUnlagged_quiet s r
  · dsimp only
    split
    · exact (profileEnd_quiet s _ _).trans (lagJoin_quiet _ _ _ ‹_›)
    · exact ((profileEnd_quiet s _ _).trans (Quiet.occurNat _ _ _)).trans (releaseUnlagged_quiet _ _)

theorem arrivalWalk_length (v : Nat) (st : LagStage) : ∀ l, (arrivalWalk v st l).length = l.length
  | [] => rfl
  | e :: rest => by
    unfold arrivalWalk
    split
    · split
      · simp [arrivalWalk_length v st rest]
      · rfl
    · simp [arrivalWalk_length v st rest]

theorem lagArrivals_quiet : Quiet s (lagArrivals s) :=
  Quiet.lag s _ (by intro h; simpa only [arrivalWalk_length] using h) (by exact id)

theorem lagFlush_quiet : Quiet s (lagFlush s) :=
  Quiet.lag s _ (by intro h; simpa using h) (by exact id)

theorem flushCompletion_quiet : Quiet s (flushCompletion s) :=
  Quiet.ite ((Quiet.lag s { s.lag with flushWatch := false } id id).trans (Quiet.bill _ _)) (Quiet.refl s)

end

/-! ## The interval unit -/

section
variable (s : State)

theorem openInterval_quiet (c : Option (Trigger × Option Nat)) (top : Nat) : Quiet s (openInterval c top s) :=
  Quiet.interval _ _

theorem intervalTorque_quiet (torque dt : Nat) : Quiet s (intervalTorque torque dt s) := by
  unfold intervalTorque
  split
  · exact Quiet.ite (Quiet.interval _ _) (Quiet.refl s)
  · exact Quiet.refl s

theorem markLoss_quiet : Quiet s (markLoss s) := Quiet.interval _ _

theorem classifyClose_quiet (o : OpenInterval) (r : Strata) : Quiet s (classifyClose o r s) := by
  unfold classifyClose
  split
  · exact Quiet.interval _ _
  · exact Quiet.occurNat s _ _

/-- A close (R141). -/
theorem closeInterval_quiet (t : Trigger) (b : Nat) : Quiet s (closeInterval t b s) := by
  unfold closeInterval
  split
  · exact Quiet.refl s
  · next o _ =>
    dsimp only
    refine Quiet.ite ?_ (Quiet.trans ?_ (openInterval_quiet _ _ _)) <;>
      exact (((classifyClose_quiet s o _).trans (Quiet.interval _ _)).trans (lagTake_quiet _ _)).trans
        (billInterval_quiet _ _)

theorem intervalAdvance_quiet (a n w : Nat) : Quiet s (intervalAdvance a n w s) := by
  unfold intervalAdvance
  split
  · exact Quiet.refl s
  · dsimp only
    split
    · split
      · exact (Quiet.interval s _).trans (closeInterval_quiet _ _ _)
      · exact Quiet.interval s _
    · exact Quiet.interval s _

theorem shiftCut_quiet : Quiet s (shiftCut s) := Quiet.ite (closeInterval_quiet s _ _) (Quiet.refl s)

theorem endCut_quiet : Quiet s (endCut s) := Quiet.ite (closeInterval_quiet s _ _) (Quiet.interval s _)

theorem intervalClear_quiet : Quiet s (intervalClear s) := Quiet.interval _ _

end

/-! ## The circulation unit -/

section
variable (s : State)

theorem evalNoFlow_quiet : Quiet s (evalNoFlow s) := Quiet.setCondition s _ _ _

theorem evalReturnLow_quiet : Quiet s (evalReturnLow s) := Quiet.setCondition s _ _ _

theorem pumpingChanged_quiet : Quiet s (pumpingChanged s) := (evalNoFlow_quiet s).trans (evalReturnLow_quiet _)

theorem recomputeFlow_quiet : Quiet s (recomputeFlow s) := Quiet.circ _ _

theorem setRate_quiet (p : Pump) (r : Option Nat) : Quiet s (setRate p r s) := by
  unfold setRate
  split
  · exact Quiet.refl s
  · dsimp only
    refine Quiet.trans (Quiet.trans ?_ (recomputeFlow_quiet _)) (pumpingChanged_quiet _)
    split
    · exact Quiet.circ _ _
    · exact Quiet.circ _ _

theorem addStrokes_quiet (p : Pump) (d : Nat) : Quiet s (addStrokes p d s) := by
  unfold addStrokes
  split
  · exact Quiet.ite (Quiet.refl s) ((Quiet.circ s _).trans (lagArrivals_quiet _))
  · exact Quiet.refl s

theorem strokeSample_quiet (p : Pump) (d dt : Nat) : Quiet s (strokeSample p d dt s) :=
  (setRate_quiet s _ _).trans (addStrokes_quiet _ _ _)

theorem setPitLoss_quiet (b : Bool) : Quiet s (setPitLoss b s) :=
  Quiet.ite ((Quiet.setCondition s _ _ _).trans (markLoss_quiet _)) (Quiet.setCondition s _ _ _)

theorem setPitGain_quiet (b : Bool) : Quiet s (setPitGain b s) := Quiet.setCondition s _ _ _

theorem pitWatch_quiet : Quiet s (pitWatch s) := by
  unfold pitWatch
  split
  · exact Quiet.refl s
  · exact (setPitGain_quiet s _).trans (setPitLoss_quiet _ _)
  · exact (setPitGain_quiet s _).trans (setPitLoss_quiet _ _)

theorem adjustPit_quiet (x : Int) : Quiet s (adjustPit x s) := Quiet.ite (Quiet.circ _ _) (Quiet.refl s)

theorem pitAdjustment_quiet (x : Int) : Quiet s (pitAdjustment x s) :=
  Quiet.ite ((adjustPit_quiet s _).trans (pitWatch_quiet _)) (Quiet.refl s)

theorem pitSample_quiet : Quiet s (pitSample s) := Quiet.ite ((Quiet.circ s _).trans (pitWatch_quiet _)) (Quiet.refl s)

theorem pitBaseline_quiet (v : Nat) : Quiet s (pitBaseline v s) :=
  ((((Quiet.circ s _).trans (setPitGain_quiet _ _)).trans (setPitLoss_quiet _ _)).trans
    (Quiet.setCondition _ _ _ _)).trans (pitWatch_quiet _)

theorem pitAtRest_quiet : Quiet s (pitAtRest s) := Quiet.circ _ _

theorem pitSuspend_quiet (c : Nat) : Quiet s (pitSuspend c s) :=
  (((pitAtRest_quiet s).trans (setPitGain_quiet _ _)).trans (setPitLoss_quiet _ _)).trans (Quiet.setCondition _ _ _ _)

theorem pitStateNotice_quiet (v : ValueState) : Quiet s (pitStateNotice v s) :=
  Quiet.ite (pitSuspend_quiet s _) (Quiet.refl s)

theorem pitVolumeSample_quiet (v : Nat) (b : ValueState) : Quiet s (pitVolumeSample v b s) :=
  Quiet.ite (pitBaseline_quiet s _) (pitSample_quiet s)

theorem pitLeaveBypass_quiet : Quiet s (pitLeaveBypass s) := pitSuspend_quiet s _

theorem pitJobEnd_quiet : Quiet s (pitJobEnd s) := by
  unfold pitJobEnd
  split
  · split
    · exact pitBaseline_quiet s _
    · exact Quiet.ite (pitSuspend_quiet s _) (Quiet.refl s)
  · exact (((pitAtRest_quiet s).trans (setPitGain_quiet _ _)).trans (setPitLoss_quiet _ _)).trans
      (Quiet.setCondition _ _ _ _)

theorem segmentWatch_quiet : Quiet s (segmentWatch s) := (evalReturnLow_quiet s).trans (pitWatch_quiet _)

theorem refindSegment_quiet : Quiet s (refindSegment s) := by
  unfold refindSegment
  split
  · exact Quiet.refl s
  · dsimp only
    refine Quiet.trans ?_ (segmentWatch_quiet _)
    refine Quiet.ite ?_ (Quiet.trans ?_ (Quiet.occurNat _ _ _)) <;>
      exact Quiet.ite ((Quiet.circ s _).trans (Quiet.occurNat _ _ _)) (Quiet.circ s _)

theorem stepChain_quiet : ∀ n s, Quiet s (stepChain n s)
  | 0, s => Quiet.refl s
  | n + 1, s => by
    unfold stepChain
    split
    · refine Quiet.ite (Quiet.ite (Quiet.ite (Quiet.refl s) ?_) ?_) (Quiet.refl s)
      · exact (Quiet.circ s _).trans (Quiet.occurNat _ _ _)
      · exact ((Quiet.circ s _).trans (Quiet.occurNat _ _ _)).trans (stepChain_quiet n _)
    · exact Quiet.refl s

theorem circAdvance_quiet (a : Nat) : Quiet s (circAdvance a s) :=
  ((adjustPit_quiet s _).trans (stepChain_quiet _ _)).trans (segmentWatch_quiet _)

theorem pressureSample_quiet (v : Nat) : Quiet s (pressureSample v s) := by
  unfold pressureSample
  split
  · exact Quiet.refl s
  · exact Quiet.ite ((Quiet.setCondition s _ _ _).trans (holdStart_quiet _)) (Quiet.setCondition s _ _ _)

theorem waterSample_quiet (d : Nat) : Quiet s (waterSample d s) :=
  Quiet.ite (Quiet.refl s) (pitAdjustment_quiet s _)

end

/-! ## The depth unit -/

section
variable (s : State)

theorem recomputeBits_quiet : Quiet s (recomputeBits s) := Quiet.depth _ _

theorem recomputeTop_quiet : Quiet s (recomputeTop s) := by
  unfold recomputeTop
  split
  · exact (Quiet.depth s _).trans (recomputeBits_quiet _)
  · exact Quiet.refl s

theorem slipsNotice_quiet : Quiet s (slipsNotice s) := by
  unfold slipsNotice
  dsimp only
  split
  · exact Quiet.refl s
  · split
    · exact ((Quiet.depth s _).trans (recomputeTop_quiet _)).trans (Quiet.depth _ _)
    · exact ((Quiet.depth s _).trans (Quiet.depth _ _)).trans (recomputeTop_quiet _)
    · exact Quiet.depth s _

theorem recomputeLoad_quiet : Quiet s (recomputeLoad s) := (Quiet.depth s _).trans (Quiet.setCondition _ _ _ _)

theorem recomputeWeight_quiet : Quiet s (recomputeWeight s) := (Quiet.depth s _).trans (recomputeLoad_quiet _)

theorem setActivity_quiet (a : Activity) : Quiet s (setActivity a s) :=
  Quiet.ite (Quiet.refl s) ((Quiet.depth s _).trans (evalNoFlow_quiet _))

theorem setCandidate_quiet (x : Activity) (b : Option Nat) : Quiet s (setCandidate x b s) := Quiet.depth _ _

theorem takeCandidate_quiet (x : Activity) : Quiet s (takeCandidate x s) := by
  have h := (setCandidate_quiet s x none).trans (setActivity_quiet _ x)
  exact Quiet.ite h (Quiet.ite (Quiet.ite h (setCandidate_quiet s _ _)) (Quiet.refl s))

theorem recomputeCandidate_quiet : Quiet s (recomputeCandidate s) := takeCandidate_quiet s _

theorem expireDwell_quiet : Quiet s (expireDwell s) :=
  Quiet.ite ((setCandidate_quiet s _ _).trans (setActivity_quiet _ _)) (Quiet.refl s)

theorem setConflict_quiet (b : Bool) : Quiet s (setConflict b s) := Quiet.depth _ _

theorem findConflict_quiet (x : Nat) : Quiet s (findConflict x s) :=
  Quiet.ite (Quiet.refl s) ((Quiet.occurNat s _ _).trans (setConflict_quiet _ _))

theorem takeAdvance_quiet (r x : Nat) : Quiet s (takeAdvance r x s) :=
  (((Quiet.depth s _).trans (recomputeBits_quiet _)).trans (intervalAdvance_quiet _ _ _ _)).trans (circAdvance_quiet _ _)

/-- A hole advance evaluated (R50, R51). -/
theorem evalAdvance_quiet : Quiet s (evalAdvance s) := by
  unfold evalAdvance
  split
  · exact Quiet.ite (setConflict_quiet s _) (Quiet.ite (takeAdvance_quiet s _ _) (findConflict_quiet s _))
  · exact Quiet.refl s

/-- A string change (R47). -/
theorem stringChange_quiet : Quiet s (stringChange s) :=
  (((recomputeBits_quiet s).trans (evalAdvance_quiet _)).trans (recomputeWeight_quiet _)).trans
    (recomputeCandidate_quiet _)

theorem moveTop_quiet (x : Int) : Quiet s (moveTop x s) := by
  unfold moveTop
  split
  · exact Quiet.depth _ _
  · exact Quiet.refl s

theorem rodMoveNotice_quiet (x : Int) : Quiet s (rodMoveNotice x s) :=
  ((Quiet.depth s _).trans (moveTop_quiet _ _)).trans (stringChange_quiet _)

theorem commitNotice_quiet (t : Option Int) : Quiet s (commitNotice t s) := by
  unfold commitNotice
  split
  · exact (Quiet.depth s _).trans (stringChange_quiet _)
  · exact stringChange_quiet s

theorem depthSees_quiet : Quiet s (depthSees s) :=
  ((slipsNotice_quiet s).trans (recomputeTop_quiet _)).trans (recomputeWeight_quiet _)

theorem blockHeightSample_quiet : Quiet s (blockHeightSample s) :=
  (((depthSees_quiet s).trans (recomputeBits_quiet _)).trans (evalAdvance_quiet _)).trans
    (recomputeCandidate_quiet _)

theorem depthSample_quiet : Quiet s (depthSample s) := (depthSees_quiet s).trans (recomputeCandidate_quiet _)

theorem depthSettings_quiet : Quiet s (depthSettings s) :=
  ((((recomputeTop_quiet s).trans (recomputeBits_quiet _)).trans (recomputeWeight_quiet _)).trans
    (recomputeCandidate_quiet _)).trans (expireDwell_quiet _)

theorem depthJobStart_quiet (h : Nat) : Quiet s (depthJobStart h s) := (Quiet.depth s _).trans (recomputeBits_quiet _)

theorem setModeObserve_quiet (h : s.line.mode = .govern) : Quiet s (setMode .observe s) := by
  refine Quiet.trans ?_ (statusDue_eventOnly _ _).toQuiet
  exact ⟨rfl, rfl, rfl, rfl, rfl, rfl, .inr ⟨h, rfl⟩, fun _ => rfl, fun m => (by rw [m] at h; cases h),
    fun z => ⟨z.1, z.2, z.3, z.4, z.5, z.6, z.7, z.8, z.9, z.10⟩, List.prefix_refl _⟩

/-- GOVERN drops to OBSERVE when the string becomes INVALID (R17). -/
theorem governDrop_quiet : Quiet s (governDrop s) := by
  unfold governDrop
  split
  · exact ((setModeObserve_quiet s ‹_›).trans (recomputeCandidate_quiet _)).trans (Quiet.occurNat _ _ _)
  · exact Quiet.refl s

end

/-! ## The rod unit -/

section
variable (s : State)

theorem updateRod_quiet (tag : Nat) (f : Rod → Rod) : Quiet s (updateRod tag f s) :=
  Quiet.rod s _ (by intro h; simpa using h) (by exact id) (by exact id)

theorem recomputeSums_quiet : Quiet s (recomputeSums s) := Quiet.rodSame s _ (by rfl) (by rfl) (by rfl)

theorem evalFatigue_quiet : Quiet s (evalFatigue s) := Quiet.setCondition s _ _ _

theorem recomputeFatigue_quiet : Quiet s (recomputeFatigue s) :=
  (Quiet.rodSame s _ (by rfl) (by rfl) (by rfl)).trans (evalFatigue_quiet _)

theorem fatigueSample_quiet (torque dt : Nat) : Quiet s (fatigueSample torque dt s) := by
  unfold fatigueSample
  split
  · exact Quiet.ite (Quiet.refl s) ((Quiet.rodSame s _ (by rfl) (by rfl) (by rfl)).trans (evalFatigue_quiet _))
  · exact Quiet.refl s

theorem admitRod_admits : Admits s (admitRod s) := by
  unfold admitRod
  split
  · split
    · exact admitOne_admits .rod _ s ‹_›
    · exact Admits.refl s
  · exact Admits.refl s

/-- Writing what has been judged within the step. -/
theorem Quiet.judged (l : List Producer) : Quiet s (s.setLine { s.line with judged := l }) :=
  { Quiet.refl s with
    now := rfl, pending := rfl, noticeOrder := rfl, line := rfl, channels := rfl, tables := rfl, mode := .inl rfl
    out := fun h => h, bypass := fun _ => rfl, grows := List.prefix_refl _
    sizes := fun ⟨a, b, c, d, e, f, g, h, i, j⟩ => ⟨a, b, c, d, e, f, g, h, i, j⟩ }

theorem judgeWaits_quiet (n : Nat) : ∀ s, Quiet s (judgeWaits n s) := by
  induction n with
  | zero => exact Quiet.refl
  | succ n ih =>
    intro s
    unfold judgeWaits
    split
    · exact ((Quiet.judged s _).trans (Quiet.occurNat _ _ _)).trans (ih _)
    · exact Quiet.refl s

theorem judgeFull_quiet : Quiet s (judgeFull s) := Quiet.ite (judgeWaits_quiet _ s) (Quiet.refl s)

theorem offerRodRecord_quiet (r : RecordBody) : Quiet s (offerRodRecord r s) := by
  unfold offerRodRecord
  refine Quiet.trans (judgeFull_quiet s) (Quiet.trans ?_ (judgeFull_quiet _))
  split
  · refine Quiet.trans (Quiet.rod _ _ (by exact id) (by exact id) fun _ => ?_) (admitRod_admits _).toQuiet
    simp; omega
  · exact Quiet.occurNat _ _ _

theorem setRodCandidate_quiet (c : Option Nat) : Quiet s (setRodCandidate c s) := Quiet.rodSame s _ (by rfl) (by rfl) (by rfl)

theorem rodUnavailable_quiet (t c : Nat) : Quiet s (rodUnavailable t c s) :=
  (setRodCandidate_quiet s _).trans (Quiet.occurNat _ _ _)

theorem tagSample_quiet (t : Nat) : Quiet s (tagSample t s) := by
  unfold tagSample
  split
  · exact Quiet.refl s
  · split
    · exact (setRodCandidate_quiet s _).trans (Quiet.occurNat _ _ _)
    · split
      · exact Quiet.ite (rodUnavailable_quiet s _ _)
          (Quiet.ite (rodUnavailable_quiet s _ _) (setRodCandidate_quiet s _))
      · exact Quiet.ite (Quiet.refl s) (rodUnavailable_quiet s _ _)
      · exact rodUnavailable_quiet s _ _
      · exact rodUnavailable_quiet s _ _

theorem invalidate_quiet : Quiet s (invalidate s) :=
  Quiet.ite (((Quiet.rodSame s _ (by rfl) (by rfl) (by rfl)).trans (governDrop_quiet _)).trans (stringChange_quiet _)) (Quiet.refl s)

theorem untrackedMakeup_quiet (c t : Nat) : Quiet s (untrackedMakeup c t s) :=
  (((Quiet.occurNat s _ _).trans (setRodCandidate_quiet _ _)).trans (invalidate_quiet _)).trans
    (Quiet.setCondition _ _ _ _)

theorem judgeTorque_quiet (r : Rod) (torque : Nat) : Quiet s (judgeTorque r torque s) :=
  Quiet.ite (Quiet.refl s) ((updateRod_quiet s _ _).trans (Quiet.occurNat _ _ _))

theorem addSums_quiet (r : Rod) : Quiet s (addSums r s) := Quiet.rodSame s _ (by rfl) (by rfl) (by rfl)

theorem stackTag_quiet (tag : Nat) (h : s.rod.string.length < 250) : Quiet s (stackTag tag s) :=
  Quiet.rod s _ (by exact id) (fun _ => by simp; omega) (by exact id)

theorem pushInUnit_quiet (r : Rod) (torque : Nat) (h : s.rod.string.length < 250) :
    Quiet s (pushInUnit r torque s) :=
  (((((stackTag_quiet s _ h).trans (updateRod_quiet _ _ _)).trans (judgeTorque_quiet _ _ _)).trans
    (addSums_quiet _ _)).trans (recomputeFatigue_quiet _)).trans (setRodCandidate_quiet _ _)

/-- A push (R78). -/
theorem pushRod_quiet (r : Rod) (torque : Nat) (h : s.rod.string.length < 250) : Quiet s (pushRod r torque s) := by
  unfold pushRod
  dsimp only
  have k := ((pushInUnit_quiet s r torque h).trans (rodMoveNotice_quiet _ r.length)).trans
    (pitAdjustment_quiet _ (steelTerm (pushInUnit r torque s) r))
  split
  · exact k.trans (offerRodRecord_quiet _ _)
  · exact k

theorem makeup_quiet (torque : Nat) : Quiet s (makeup torque s) := by
  unfold makeup
  split
  · exact untrackedMakeup_quiet s _ _
  · split
    · exact untrackedMakeup_quiet s _ _
    · exact pushRod_quiet s _ _ (by omega)

theorem retireOccurrence_quiet (r : Rod) : Quiet s (retireOccurrence r s) :=
  Quiet.ite (Quiet.occurNat s _ _) (Quiet.refl s)

theorem retireBilling_quiet (r : Rod) : Quiet s (retireBilling r s) := Quiet.ite (billRod_quiet s) (Quiet.refl s)

theorem unstackTag_quiet : Quiet s (unstackTag s) :=
  Quiet.rod s _ (by exact id) (fun h => by simp; omega) (by exact id)

theorem subSums_quiet (r : Rod) : Quiet s (subSums r s) := Quiet.rodSame s _ (by rfl) (by rfl) (by rfl)

theorem popInUnit_quiet (r x : Rod) : Quiet s (popInUnit r x s) :=
  (((((unstackTag_quiet s).trans (updateRod_quiet _ _ _)).trans (retireOccurrence_quiet _ _)).trans
    (subSums_quiet _ _)).trans (recomputeFatigue_quiet _)).trans (setRodCandidate_quiet _ _)

/-- A pop (R81). -/
theorem popRod_quiet (r : Rod) : Quiet s (popRod r s) :=
  ((((popInUnit_quiet s r _).trans (rodMoveNotice_quiet _ _)).trans (pitAdjustment_quiet _ _)).trans
    (retireBilling_quiet _ _)).trans (offerRodRecord_quiet _ _)

theorem breakout_quiet : Quiet s (breakout s) := by
  unfold breakout
  split
  · exact Quiet.occurNat s _ _
  · exact popRod_quiet s _

theorem breakouts_quiet : ∀ n s, Quiet s (breakouts n s)
  | 0, s => Quiet.refl s
  | n + 1, s => (breakout_quiet s).trans (breakouts_quiet n _)

theorem rodclassActivated_quiet : Quiet s (rodclassActivated s) :=
  ((recomputeSums_quiet s).trans (recomputeFatigue_quiet _)).trans (stringChange_quiet _)

theorem returnRod_quiet (tag : Nat) : Quiet s (returnRod tag s) := by
  unfold returnRod
  split
  · exact Quiet.refl s
  · exact ((updateRod_quiet s _ _).trans (retireOccurrence_quiet _ _)).trans (retireBilling_quiet _ _)

theorem returnRods_quiet : ∀ l s, Quiet s (returnRods l s)
  | [], s => Quiet.refl s
  | _ :: rest, s => (returnRod_quiet s _).trans (returnRods_quiet rest _)

theorem placeRods_quiet (old : List Nat) : ∀ l s, Quiet s (placeRods old l s)
  | [], s => Quiet.refl s
  | _ :: rest, s => (updateRod_quiet s _ _).trans (placeRods_quiet old rest _)

end

/-! ## Judging within a step (R23) -/

/-- What has been judged may be written on both sides of an occurrence or a report. -/
theorem EventOnly.setJudged {s t : State} (h : EventOnly s t) (l : List Producer) :
    EventOnly (s.setLine { s.line with judged := l }) (t.setLine { t.line with judged := l }) :=
  ⟨h.now, h.pending, h.noticeOrder, congrArg (fun x : LineState => { x with judged := l }) h.line, h.channels, h.depth,
    h.rod, h.circ, h.lag, h.interval, h.bill, h.gov, h.tables, h.size, h.quiet, h.counts⟩

/-- Judging brings occurrences and writes what has been judged, and nothing else (R23). -/
theorem judgeWaits_eventOnly (n : Nat) : ∀ s,
    EventOnly (s.setLine { s.line with judged := (judgeWaits n s).line.judged }) (judgeWaits n s) := by
  induction n with
  | zero => exact EventOnly.refl
  | succ n ih =>
    intro s
    unfold judgeWaits
    split
    · next p _ =>
      exact EventOnly.trans ((raise_eventOnly _ (s.setLine { s.line with judged := p :: s.line.judged })).setJudged _) (ih _)
    · exact EventOnly.refl s

/-- The same of judging with the record queue full. -/
theorem judgeFull_eventOnly (s : State) :
    EventOnly (s.setLine { s.line with judged := (judgeFull s).line.judged }) (judgeFull s) := by
  unfold judgeFull
  split
  · exact judgeWaits_eventOnly _ s
  · exact EventOnly.refl s

end Sys2Proof.Machine
end

