-- ==== Sys2Proof/Laws/Calm.lean ====
section
/-! SUPPORT. What re-evaluations never touch: the operations that recompute conditions, the string top, the weights, the
activity, the stroke rates and the pit balance leave rods, records, tickets, the hole depth and the governor as they
are. -/

namespace Sys2Proof.Machine

/-- The sources of the channel unit and of the links, which no re-evaluation reports (R31, R36, R2). -/
def Reserved (q : Source) : Prop := q.val < 32 ∨ q = srcLinkDown

/-- A re-evaluation: besides the event unit's share it writes the depth unit's views, the circulation unit's rates and
balance, and at most the loss flag of the open interval. -/
structure Calm (s t : State) : Prop where
  now : t.now = s.now
  line : t.line = { s.line with statusDue := t.line.statusDue, injections := t.line.injections }
  quiet : s.line.mode ≠ .govern → t.line.injections = s.line.injections
  channels : t.channels = s.channels
  tables : t.tables = s.tables
  rod : t.rod = s.rod
  lag : t.lag = s.lag
  bill : t.bill = s.bill
  gov : t.gov = s.gov
  hole : t.depth.hole = s.depth.hole
  conflict : t.depth.conflict = s.depth.conflict
  jobClock : t.depth.jobClock = s.depth.jobClock
  clockRuns : t.depth.clockRuns = s.depth.clockRuns
  secondStart : t.depth.secondStart = s.depth.secondStart
  downtime : t.depth.downtime = s.depth.downtime
  pumped : t.circ.pumped = s.circ.pumped
  interval : t.interval = s.interval ∨
    t.interval = { s.interval with current := s.interval.current.map fun o => { o with loss := true } }
  conds : ∀ q, Reserved q → cond t q = cond s q
  accounts : ∀ q : Source, q.val < 32 → t.event.accounts[q] = s.event.accounts[q]

theorem Calm.refl (s : State) : Calm s s :=
  ⟨rfl, rfl, fun _ => rfl, rfl, rfl, rfl, rfl, rfl, rfl, rfl, rfl, rfl, rfl, rfl, rfl, rfl, .inl rfl, fun _ _ => rfl,
    fun _ _ => rfl⟩

theorem Calm.mode {s t : State} (h : Calm s t) : t.line.mode = s.line.mode := by rw [h.line]

theorem Calm.trans {s t u : State} (h : Calm s t) (k : Calm t u) : Calm s u where
  now := k.now.trans h.now
  line := by rw [k.line, h.line]
  quiet := fun m => (k.quiet (by rw [h.mode]; exact m)).trans (h.quiet m)
  channels := k.channels.trans h.channels
  tables := k.tables.trans h.tables
  rod := k.rod.trans h.rod
  lag := k.lag.trans h.lag
  bill := k.bill.trans h.bill
  gov := k.gov.trans h.gov
  hole := k.hole.trans h.hole
  conflict := k.conflict.trans h.conflict
  jobClock := k.jobClock.trans h.jobClock
  clockRuns := k.clockRuns.trans h.clockRuns
  secondStart := k.secondStart.trans h.secondStart
  downtime := k.downtime.trans h.downtime
  pumped := k.pumped.trans h.pumped
  interval := by
    rcases h.interval with a | a <;> rcases k.interval with b | b
    · exact .inl (b.trans a)
    · exact .inr (by rw [b, a])
    · exact .inr (b.trans a)
    · refine .inr (b.trans ?_)
      rw [a]; cases s.interval.current <;> rfl
  conds := fun q hq => (k.conds q hq).trans (h.conds q hq)
  accounts := fun q hq => (k.accounts q hq).trans (h.accounts q hq)

theorem Calm.ite {s t u : State} {c : Prop} [Decidable c] (h : Calm s t) (k : Calm s u) :
    Calm s (if c then t else u) := by
  split <;> assumption

/-- What only the event unit's share separates is calm where no reserved source is touched. -/
theorem EventOnly.toCalm {s t : State} (h : EventOnly s t) (hc : ∀ q, Reserved q → cond t q = cond s q)
    (ha : ∀ q : Source, q.val < 32 → t.event.accounts[q] = s.event.accounts[q]) : Calm s t where
  now := h.now
  line := h.line
  quiet := h.quiet
  channels := h.channels
  tables := h.tables
  rod := h.rod
  lag := h.lag
  bill := h.bill
  gov := h.gov
  hole := by rw [h.depth]
  conflict := by rw [h.depth]
  jobClock := by rw [h.depth]
  clockRuns := by rw [h.depth]
  secondStart := by rw [h.depth]
  downtime := by rw [h.depth]
  pumped := by rw [h.circ]
  interval := .inl h.interval
  conds := hc
  accounts := ha

theorem apart_of_low {q : Source} (h : q.val < 32) : Apart q :=
  by rintro rfl; exact absurd h (by decide)

/-- An occurrence of a source from 32 on is calm. -/
theorem Calm.raise (s : State) (o : Occ) (h : 32 ≤ o.src.val) : Calm s (raise o s) :=
  (raise_eventOnly o s).toCalm (fun q _ => raise_cond o s q) fun q hq => by
    rw [raise_account o s q (apart_of_low hq), if_neg (by rintro rfl; omega)]

theorem Calm.occurNat (s : State) (src : Source) (d : Nat) (h : 32 ≤ src.val) : Calm s (occurNat src d s) :=
  Calm.raise s _ h

/-- A report of a source from 32 on, but for LINK_DOWN, is calm. -/
theorem Calm.report (s : State) (src : Source) (b : Bool) (h : 32 ≤ src.val) (h' : src ≠ srcLinkDown) :
    Calm s (report src b s) :=
  (report_eventOnly src b s).toCalm
    (fun q hq => by
      rw [report_cond, if_neg]
      rintro rfl
      rcases hq with hq | hq
      · omega
      · exact h' hq)
    fun q hq => by rw [report_account src b s q (apart_of_low hq), if_neg (by rintro rfl; omega)]

theorem Calm.setCondition (s : State) (src : Source) (b : Bool) (d : BitVec 32) (h : 32 ≤ src.val)
    (h' : src ≠ srcLinkDown) : Calm s (setCondition src b d s) :=
  Calm.ite ((Calm.report s src b h h').trans (Calm.raise _ _ h)) (Calm.report s src b h h')

theorem Calm.statusDue (s : State) (c : StatusCause) : Calm s (statusDue c s) :=
  (statusDue_eventOnly c s).toCalm (fun q _ => statusDue_cond c s q) fun _ _ => rfl

/-- Writing the depth unit's views. -/
theorem Calm.depth (s : State) (x : DepthState) (h : x.hole = s.depth.hole) (c : x.conflict = s.depth.conflict)
    (j : x.jobClock = s.depth.jobClock) (r : x.clockRuns = s.depth.clockRuns)
    (b : x.secondStart = s.depth.secondStart) (d : x.downtime = s.depth.downtime) : Calm s (s.setDepth x) :=
  ⟨rfl, rfl, fun _ => rfl, rfl, rfl, rfl, rfl, rfl, rfl, h, c, j, r, b, d, rfl, .inl rfl, fun _ _ => rfl,
    fun _ _ => rfl⟩

/-- Writing the circulation unit but for V_p. -/
theorem Calm.circ (s : State) (x : CircState) (h : x.pumped = s.circ.pumped) : Calm s (s.setCirc x) :=
  ⟨rfl, rfl, fun _ => rfl, rfl, rfl, rfl, rfl, rfl, rfl, rfl, rfl, rfl, rfl, rfl, rfl, h, .inl rfl, fun _ _ => rfl,
    fun _ _ => rfl⟩

section
variable (s : State)

theorem markLoss_calm : Calm s (markLoss s) :=
  ⟨rfl, rfl, fun _ => rfl, rfl, rfl, rfl, rfl, rfl, rfl, rfl, rfl, rfl, rfl, rfl, rfl, rfl, .inr rfl, fun _ _ => rfl,
    fun _ _ => rfl⟩

/-! ## The circulation unit -/

theorem evalNoFlow_calm : Calm s (evalNoFlow s) := Calm.setCondition s _ _ _ (by decide) (by decide)

theorem evalReturnLow_calm : Calm s (evalReturnLow s) := Calm.setCondition s _ _ _ (by decide) (by decide)

theorem pumpingChanged_calm : Calm s (pumpingChanged s) := (evalNoFlow_calm s).trans (evalReturnLow_calm _)

theorem recomputeFlow_calm : Calm s (recomputeFlow s) := Calm.circ _ _ rfl

theorem setRate_calm (p : Pump) (r : Option Nat) : Calm s (setRate p r s) := by
  unfold setRate
  split
  · exact Calm.refl s
  · refine Calm.trans (Calm.trans ?_ (recomputeFlow_calm _)) (pumpingChanged_calm _)
    split
    · exact Calm.circ s _ (by rfl)
    · exact Calm.circ s _ (by rfl)

theorem setPitLoss_calm (b : Bool) : Calm s (setPitLoss b s) :=
  Calm.ite ((Calm.setCondition s _ _ _ (by decide) (by decide)).trans (markLoss_calm _))
    (Calm.setCondition s _ _ _ (by decide) (by decide))

theorem setPitGain_calm (b : Bool) : Calm s (setPitGain b s) := Calm.setCondition s _ _ _ (by decide) (by decide)

theorem pitWatch_calm : Calm s (pitWatch s) := by
  unfold pitWatch
  split
  · exact Calm.refl s
  · exact (setPitGain_calm s _).trans (setPitLoss_calm _ _)
  · exact (setPitGain_calm s _).trans (setPitLoss_calm _ _)

theorem adjustPit_calm (x : Int) : Calm s (adjustPit x s) := Calm.ite (Calm.circ s _ (by rfl)) (Calm.refl s)

theorem pitAdjustment_calm (x : Int) : Calm s (pitAdjustment x s) :=
  Calm.ite ((adjustPit_calm s _).trans (pitWatch_calm _)) (Calm.refl s)

theorem pitSample_calm : Calm s (pitSample s) :=
  Calm.ite ((Calm.circ s _ (by rfl)).trans (pitWatch_calm _)) (Calm.refl s)

theorem pitBaseline_calm (v : Nat) : Calm s (pitBaseline v s) := by
  refine Calm.trans ?_ (pitWatch_calm _)
  refine Calm.trans ?_ (Calm.setCondition _ _ _ _ (by decide) (by decide))
  exact ((Calm.circ s _ (by rfl)).trans (setPitGain_calm _ _)).trans (setPitLoss_calm _ _)

theorem pitAtRest_calm : Calm s (pitAtRest s) := Calm.circ s _ (by rfl)

theorem pitSuspend_calm (c : Nat) : Calm s (pitSuspend c s) :=
  (((pitAtRest_calm s).trans (setPitGain_calm _ _)).trans (setPitLoss_calm _ _)).trans
    (Calm.setCondition _ _ _ _ (by decide) (by decide))

theorem pitStateNotice_calm (v : ValueState) : Calm s (pitStateNotice v s) :=
  Calm.ite (pitSuspend_calm s _) (Calm.refl s)

theorem pitVolumeSample_calm (v : Nat) (b : ValueState) : Calm s (pitVolumeSample v b s) :=
  Calm.ite (pitBaseline_calm s _) (pitSample_calm s)

theorem pitLeaveBypass_calm : Calm s (pitLeaveBypass s) := pitSuspend_calm s _

theorem pitJobEnd_calm : Calm s (pitJobEnd s) := by
  unfold pitJobEnd
  split
  · split
    · exact pitBaseline_calm s _
    · exact Calm.ite (pitSuspend_calm s _) (Calm.refl s)
  · exact (((pitAtRest_calm s).trans (setPitGain_calm _ _)).trans (setPitLoss_calm _ _)).trans
      (Calm.setCondition _ _ _ _ (by decide) (by decide))

theorem segmentWatch_calm : Calm s (segmentWatch s) := (evalReturnLow_calm s).trans (pitWatch_calm _)

theorem refindSegment_calm : Calm s (refindSegment s) := by
  unfold refindSegment
  split
  · exact Calm.refl s
  · refine Calm.trans ?_ (segmentWatch_calm _)
    dsimp only
    have a : ∀ (b : Bool) (id : Nat) (x : CircState), x.pumped = s.circ.pumped →
        Calm s (if b = true then occurNat srcProgrammeEnd id (s.setCirc x) else s.setCirc x) := fun b id x h =>
      Calm.ite ((Calm.circ s x h).trans (Calm.occurNat _ _ _ (by decide))) (Calm.circ s x h)
    exact Calm.ite (a _ _ _ (by rfl)) ((a _ _ _ (by rfl)).trans (Calm.occurNat _ _ _ (by decide)))

/-! ## The depth unit -/

theorem recomputeBits_calm : Calm s (recomputeBits s) := Calm.depth s _ (by rfl) (by rfl) (by rfl) (by rfl) (by rfl) (by rfl)

theorem recomputeTop_calm : Calm s (recomputeTop s) := by
  unfold recomputeTop
  split
  · exact (Calm.depth s _ (by rfl) (by rfl) (by rfl) (by rfl) (by rfl) (by rfl)).trans (recomputeBits_calm _)
  · exact Calm.refl s

theorem slipsNotice_calm : Calm s (slipsNotice s) := by
  unfold slipsNotice
  dsimp only
  split
  · exact Calm.refl s
  · have a : ∀ v, Calm s (s.setDepth { s.depth with slipsView := v }) := fun v =>
      Calm.depth s _ (by rfl) (by rfl) (by rfl) (by rfl) (by rfl) (by rfl)
    split
    · exact ((a _).trans (recomputeTop_calm _)).trans (Calm.depth _ _ (by rfl) (by rfl) (by rfl) (by rfl) (by rfl) (by rfl))
    · exact ((a _).trans (Calm.depth _ _ (by rfl) (by rfl) (by rfl) (by rfl) (by rfl) (by rfl))).trans (recomputeTop_calm _)
    · exact a _

theorem recomputeLoad_calm : Calm s (recomputeLoad s) :=
  (Calm.depth s _ (by rfl) (by rfl) (by rfl) (by rfl) (by rfl) (by rfl)).trans (Calm.setCondition _ _ _ _ (by decide) (by decide))

theorem recomputeWeight_calm : Calm s (recomputeWeight s) :=
  (Calm.depth s _ (by rfl) (by rfl) (by rfl) (by rfl) (by rfl) (by rfl)).trans (recomputeLoad_calm _)

theorem setActivity_calm (a : Activity) : Calm s (setActivity a s) :=
  Calm.ite (Calm.refl s) ((Calm.depth s _ (by rfl) (by rfl) (by rfl) (by rfl) (by rfl) (by rfl)).trans (evalNoFlow_calm _))

theorem setCandidate_calm (x : Activity) (b : Option Nat) : Calm s (setCandidate x b s) :=
  Calm.depth s _ (by rfl) (by rfl) (by rfl) (by rfl) (by rfl) (by rfl)

theorem takeCandidate_calm (x : Activity) : Calm s (takeCandidate x s) := by
  have a : Calm s (setActivity x (setCandidate x none s)) := (setCandidate_calm s _ _).trans (setActivity_calm _ _)
  exact Calm.ite a (Calm.ite (Calm.ite a (setCandidate_calm s _ _)) (Calm.refl s))

theorem recomputeCandidate_calm : Calm s (recomputeCandidate s) := takeCandidate_calm s _

theorem expireDwell_calm : Calm s (expireDwell s) :=
  Calm.ite ((setCandidate_calm s _ _).trans (setActivity_calm _ _)) (Calm.refl s)

theorem depthSettings_calm : Calm s (depthSettings s) :=
  ((((recomputeTop_calm s).trans (recomputeBits_calm _)).trans (recomputeWeight_calm _)).trans
    (recomputeCandidate_calm _)).trans (expireDwell_calm _)

/-! ## Notices of the channel unit -/

/-- A state notice (R27). -/
theorem stateNotice_calm (c : Ch) (v : ValueState) : Calm s (stateNotice c v s) := by
  unfold stateNotice
  dsimp only
  split
  · exact Calm.ite (setRate_calm s _ _) (Calm.refl s)
  · exact Calm.ite (setRate_calm s _ _) (Calm.refl s)
  · exact evalReturnLow_calm s
  · exact pitStateNotice_calm s _
  · exact recomputeLoad_calm s
  · exact recomputeTop_calm s
  · exact slipsNotice_calm s
  · exact recomputeWeight_calm s
  · exact Calm.refl s

theorem baselineNotice_calm (c : Ch) : Calm s (baselineNotice c s) := by
  unfold baselineNotice
  split
  · exact setRate_calm s _ _
  · exact setRate_calm s _ _
  · exact Calm.refl s

end

/-! ## Frames of occurrences -/

/-- Occurrences and reports differ in what `SameButEvents` leaves open. -/
theorem EventOnly.same {s t : State} (h : EventOnly s t) :
    t = { s with
      event := t.event
      line := { s.line with statusDue := t.line.statusDue, injections := t.line.injections } } := by
  obtain ⟨a, b, c, d, e, f, g, i, j, k, l, m, n, -, -, -⟩ := h
  cases s; cases t
  simp only at *
  subst a b c e f g i j k l m n
  rw [State.mk.injEq]
  exact ⟨rfl, rfl, rfl, d, rfl, rfl, rfl, rfl, rfl, rfl, rfl, rfl, rfl, rfl⟩

end Sys2Proof.Machine
end

