-- ==== Sys2Proof/Laws/Settled.lean ====
section
/-! SUPPORT. What the end of a step can do after occurrences and reports, said once: where no record that waits could
enter before the step and the step offers no ROD, TICKET or STRATA record, only EVENT and STATUS records enter. -/

namespace Sys2Proof.Machine

/-- The queue's new frames over two stretches are those of the first and then those of the second. -/
theorem newFrames_trans {s t u : State} (h : s.line.records <+: t.line.records) (k : t.line.records <+: u.line.records) :
    newFrames s u = newFrames s t ++ newFrames t u := by
  obtain ⟨a, ha⟩ := h
  obtain ⟨b, hb⟩ := k
  simp [newFrames, ← hb, ← ha]

theorem SameButRecords.refl (s : State) : SameButRecords s s :=
  ⟨rfl, List.prefix_refl _, by simp [newFrames], fun _ => ⟨rfl, rfl⟩⟩

theorem SameButRecords.trans {s t u : State} (h : SameButRecords s t) (k : SameButRecords t u) :
    SameButRecords s u := by
  obtain ⟨a, b, c, d⟩ := h
  obtain ⟨e, f, g, i⟩ := k
  refine ⟨?_, b.trans f, ?_, fun m => ?_⟩
  · rw [e, a]
  · rw [newFrames_trans b f]
    exact fun x hx => (List.mem_append.1 hx).elim (c x) (g x)
  · have l1 := b.length_le
    have l2 := f.length_le
    rw [m] at l2
    have m1 : t.line.records = s.line.records := (b.eq_of_length (by omega)).symm
    have m2 := i (m.trans m1.symm)
    exact ⟨m2.1.trans (d m1).1, m2.2.trans (d m1).2⟩

/-- What only the event unit's share separates. -/
theorem EventOnly.sameRecords {s t : State} (h : EventOnly s t) : SameButRecords s t := by
  have r : t.line.records = s.line.records := by rw [h.line]
  refine ⟨?_, by rw [r], by simp [newFrames, r], fun _ => by rw [h.line]; exact ⟨rfl, rfl⟩⟩
  rw [r, show t.line.serial = s.line.serial by rw [h.line], show t.line.highWater = s.line.highWater by rw [h.line]]
  exact h.same

/-- The frames of a record are RECORD frames of its type (R4). -/
theorem recordFrames_kind {n : Nat} {r : RecordBody} {f : Frame} (h : f ∈ recordFrames n r) :
    f.kind = 6 ∧ f.tag = BitVec.ofNat 8 r.type := by
  simp only [recordFrames, List.mem_mapIdx] at h
  obtain ⟨i, hi, rfl⟩ := h
  exact ⟨rfl, rfl⟩

/-- An EVENT or STATUS record of at least one frame enters. -/
theorem enterRecord_sameRecords {r : RecordBody} (s : State) (h : r.type = 4 ∨ r.type = 5) (n : r.frames ≠ []) :
    SameButRecords s (enterRecord r s) := by
  refine ⟨rfl, List.prefix_append _ _, ?_, fun m => ?_⟩
  · intro f hf
    have hf' : f ∈ recordFrames s.line.serial r := by
      have : newFrames s (enterRecord r s) = recordFrames s.line.serial r := List.drop_left
      rwa [this] at hf
    have := recordFrames_kind hf'
    rcases h with h | h <;> rw [h] at this
    · exact ⟨this.1, .inl this.2⟩
    · exact ⟨this.1, .inr this.2⟩
  · have : (s.line.records ++ recordFrames s.line.serial r).length = s.line.records.length := congrArg List.length m
    have l := List.length_pos_iff.2 n
    rw [List.length_append, recordFrames_length] at this
    omega

/-- The ROD, TICKET and STRATA offers of two states are the same. -/
structure SameOffers (s t : State) : Prop where
  rod : t.rod.out = s.rod.out
  ticket : t.bill.outBuffer = s.bill.outBuffer
  hold : t.lag.hold = s.lag.hold
  queue : t.lag.queue = s.lag.queue

theorem SameOffers.refl (s : State) : SameOffers s s := ⟨rfl, rfl, rfl, rfl⟩

theorem SameOffers.trans {s t u : State} (h : SameOffers s t) (k : SameOffers t u) : SameOffers s u :=
  ⟨k.rod.trans h.rod, k.ticket.trans h.ticket, k.hold.trans h.hold, k.queue.trans h.queue⟩

theorem SameButRecords.offers {s t : State} (h : SameButRecords s t) : SameOffers s t := by
  have e := h.1
  exact ⟨by rw [e], by rw [e], by rw [e], by rw [e]⟩

/-- The first waiting producer is EVENT or STATUS, or its record does not fit. -/
def Closed (s : State) : Prop :=
  ∀ p r, firstOffer s = some (p, r) → (p = .event ∨ p = .status) ∨ recordRoom s < r.frames.length

theorem offered_congr {s t : State} (h : SameOffers s t) {p : Producer} (e : p ≠ .event) (e' : p ≠ .status) :
    offeredRecord t p = offeredRecord s p := by
  cases p <;> simp_all [offeredRecord, h.rod, h.ticket, h.hold, h.queue]

/-- The first of the ROD, TICKET and STRATA offers, where there is one, comes before any other. -/
theorem firstOffer_congr {s t : State} (h : SameOffers s t) {p : Producer} {r : RecordBody}
    (k : firstOffer t = some (p, r)) (e : p ≠ .event) (e' : p ≠ .status) : firstOffer s = some (p, r) := by
  have h1 := offered_congr h (p := .rod) (by decide) (by decide)
  have h2 := offered_congr h (p := .ticket) (by decide) (by decide)
  have h3 := offered_congr h (p := .strata) (by decide) (by decide)
  simp only [firstOffer, admissionOrder, List.findSome?_cons, h1, h2, h3] at k ⊢
  cases a : offeredRecord s .rod <;> cases b : offeredRecord s .ticket <;> cases c : offeredRecord s .strata <;>
    simp only [a, b, c, Option.map_none, Option.map_some] at k ⊢ <;> try exact k
  exfalso
  cases x : offeredRecord t .event <;> cases y : offeredRecord t .status <;>
    simp [x, y] at k <;> simp_all

theorem Closed.keep {s t : State} (c : Closed s) (h : SameOffers s t) (r : recordRoom t ≤ recordRoom s) : Closed t := by
  intro p x k
  by_cases e : p = .event
  · exact .inl (.inl e)
  by_cases e' : p = .status
  · exact .inl (.inr e')
  rcases c p x (firstOffer_congr h k e e') with a | a
  · rcases a with a | a
    · exact absurd a e
    · exact absurd a e'
  · exact .inr (by omega)

theorem Settled.closed {s : State} (h : Settled s) : Closed s := by
  intro p r k
  refine .inr ?_
  have : admissible s = none := h
  simp [admissible, k, Option.filter] at this
  exact this

/-- A record that is admitted while only EVENT and STATUS records can be is one of them. -/
theorem Closed.admitOne {s : State} (c : Closed s) {p : Producer} {r : RecordBody} (h : admissible s = some (p, r)) :
    SameButRecords s (admitOne p r s) := by
  have k := Option.mem_filter_iff.1 (show (p, r) ∈ (firstOffer s).filter _ from h)
  have fit := admissible_fits h
  have first : firstOffer s = some (p, r) := k.1
  have offer : offeredRecord s p = some r := by
    obtain ⟨q, -, hq⟩ := List.exists_of_findSome?_eq_some first
    cases o : offeredRecord s q with
    | none => simp [o] at hq
    | some x => simp [o] at hq; obtain ⟨rfl, rfl⟩ := hq; exact o
  rcases c p r first with (rfl | rfl) | a
  · simp only [offeredRecord, Option.map_eq_some_iff] at offer
    obtain ⟨src, hs, rfl⟩ := offer
    refine (enterRecord_sameRecords (r := eventRecord s src) s (.inl rfl) (by simp [eventRecord])).trans ?_
    show SameButRecords _ (match lowestPending _ with | some src => _ | none => _)
    split
    · exact (setAccount_eventOnly _ _ _ fun _ => Nat.zero_le _).sameRecords
    · exact SameButRecords.refl _
  · simp only [offeredRecord, Option.map_eq_some_iff] at offer
    obtain ⟨cause, hs, rfl⟩ := offer
    refine (enterRecord_sameRecords (r := statusRecord s cause) s (.inr rfl) (by simp [statusRecord])).trans ?_
    have none : newFrames (enterRecord (statusRecord s cause) s)
        (Machine.admitOne .status (statusRecord s cause) s) = [] := List.drop_length
    exact ⟨rfl, List.prefix_refl _, by rw [none]; simp, fun _ => ⟨rfl, rfl⟩⟩
  · omega

theorem SameButRecords.room {s t : State} (h : SameButRecords s t) : recordRoom t ≤ recordRoom s := by
  have := h.2.1.length_le
  unfold recordRoom; omega

theorem admission_sameRecords (n : Nat) : ∀ judged s, Closed s → SameButRecords s (admission n judged s) := by
  induction n with
  | zero => exact fun _ s _ => SameButRecords.refl s
  | succ n ih =>
    intro judged s c
    unfold admission
    split
    · next p r e =>
      have h := c.admitOne e
      exact h.trans (ih _ _ (c.keep h.offers h.room))
    · split
      · next p e =>
        have h := (occurNat_eventOnly srcQueueFull p.code s).sameRecords
        exact h.trans (ih _ _ (c.keep h.offers h.room))
      · exact SameButRecords.refl s

/-- The end of a step that has offered no ROD, TICKET or STRATA record, from a state in which no record that waits could
enter: only EVENT and STATUS records enter (R23). -/
theorem admitted_sameRecords {s t : State} (h : Settled s) (o : SameOffers s t)
    (r : t.line.records = s.line.records) : SameButRecords t (admitted s t) := by
  have c : Closed t := h.closed.keep o (by unfold recordRoom; rw [r])
  unfold admitted
  split
  · exact SameButRecords.refl t
  · exact admission_sameRecords _ _ t c

/-! ## Where an admission ends -/

/-- Every record that waits has a frame. -/
def HasFrames (s : State) : Prop :=
  (∀ r ∈ s.rod.out, r.frames ≠ []) ∧ ∀ r, s.bill.outBuffer = some r → r.frames ≠ []

theorem HasFrames.admits {s t : State} (h : HasFrames s) (k : Admits s t) : HasFrames t :=
  ⟨fun r m => h.1 r (k.out.subset m), fun r m => by
    rcases k.ticket with a | a
    · exact h.2 r (a ▸ m)
    · rw [a] at m; cases m⟩

theorem HasFrames.offered {s : State} (h : HasFrames s) {p : Producer} {r : RecordBody}
    (o : offeredRecord s p = some r) : 0 < r.frames.length := by
  rw [List.length_pos_iff]
  cases p with
  | rod => exact h.1 r (List.mem_of_head? o)
  | ticket => exact h.2 r o
  | strata =>
    simp only [offeredRecord] at o
    split at o
    · cases o; simp [strataRecord]
    · split at o
      · cases o
      · cases o; simp [strataRecord]
    · cases o
  | event =>
    simp only [offeredRecord, Option.map_eq_some_iff] at o
    obtain ⟨src, -, rfl⟩ := o; simp [eventRecord]
  | status =>
    simp only [offeredRecord, Option.map_eq_some_iff] at o
    obtain ⟨cause, -, rfl⟩ := o; simp [statusRecord]

theorem offered_of_admissible {s : State} {p : Producer} {r : RecordBody} (h : admissible s = some (p, r)) :
    offeredRecord s p = some r := by
  have k := Option.mem_filter_iff.1 (show (p, r) ∈ (firstOffer s).filter _ from h)
  obtain ⟨q, -, hq⟩ := List.exists_of_findSome?_eq_some (show firstOffer s = some (p, r) from k.1)
  cases o : offeredRecord s q with
  | none => simp [o] at hq
  | some x => simp [o] at hq; obtain ⟨rfl, rfl⟩ := hq; exact o

/-- There are five producers. -/
theorem producers_length {l : List Producer} (h : l.Nodup) : l.length ≤ 5 :=
  (List.Nodup.subperm h (l₂ := admissionOrder) fun p _ => by cases p <;> decide).length_le

/-- The room a record's entry leaves. -/
theorem admitOne_room (p : Producer) (r : RecordBody) (s : State) :
    recordRoom (admitOne p r s) = recordRoom s - r.frames.length := by
  have : (admitOne p r s).line.records = s.line.records ++ recordFrames s.line.serial r := by
    cases p with
    | rod => rfl
    | ticket => rfl
    | status => rfl
    | strata => exact congrArg LineState.records (releaseStrata_line _)
    | event =>
      simp only [admitOne, releaseOffered]
      split <;> rfl
  unfold recordRoom
  rw [this, List.length_append, recordFrames_length]; omega

/-- An admission long enough ends where no record that waits can enter. -/
theorem admission_settled (n : Nat) : ∀ judged s, judged.Nodup → HasFrames s →
    2 * recordRoom s + (5 - judged.length) ≤ n → Settled (admission n judged s) := by
  induction n with
  | zero =>
    intro judged s _ h b
    show admissible s = none
    cases e : admissible s with
    | none => rfl
    | some o =>
      have := h.offered (offered_of_admissible (p := o.1) (r := o.2) e)
      have := admissible_fits (p := o.1) (r := o.2) e
      omega
  | succ n ih =>
    intro judged s d h b
    unfold admission
    split
    · next p r e =>
      have l := h.offered (offered_of_admissible e)
      have f := admissible_fits e
      refine ih _ _ (d.erase _) (h.admits (admitOne_admits p r s f)) ?_
      have := admitOne_room p r s
      have : judged.length ≤ (judged.erase p).length + 1 := by
        rw [List.length_erase]; split <;> omega
      omega
    · next e =>
      split
      · next p u =>
        have ev := occurNat_eventOnly srcQueueFull p.code s
        have nj : p ∉ judged := by
          have := List.find?_some (show admissionOrder.find? _ = some p from u)
          simp at this; exact this.2
        have d' : (p :: judged).Nodup := List.nodup_cons.2 ⟨nj, d⟩
        refine ih _ _ d' (h.admits (ev.toAdmits fun q => raise_cond _ s q)) ?_
        have := producers_length d'
        have r : recordRoom (occurNat srcQueueFull p.code s) = recordRoom s := by
          unfold recordRoom; rw [ev.line]
        simp only [List.length_cons] at *
        omega
      · exact e

/-- An admission ends where no record that waits can enter (R23). -/
theorem admitRecords_settled {judged : List Producer} {s : State} (d : judged.Nodup) (h : HasFrames s) :
    Settled (admitRecords judged s) := by
  refine admission_settled _ _ _ d h ?_
  unfold admissionBound recordRoom; omega

/-- The waiting producers are listed once each. -/
theorem waiting_nodup (s : State) : (waiting s).Nodup := List.Nodup.filter _ (by decide)

/-- Restoring what had been judged before a step leaves all that records and occurrences can be read from. -/
theorem SameButRecords.restore {t u : State} (l : List Producer) (h : SameButRecords t u) :
    SameButRecords (t.setLine { t.line with judged := l }) (u.setLine { u.line with judged := l }) := by
  obtain ⟨a, b, c, d⟩ := h
  exact ⟨congrArg (fun x : State => x.setLine { x.line with judged := l }) a, b, c, d⟩

/-- The end of a frame's step that has offered no ROD, TICKET or STRATA record, from a state in which no record that waits
could enter: only EVENT and STATUS records enter (R23). -/
theorem admittedJudged_sameRecords {s t : State} (h : Settled s) (o : SameOffers s t)
    (r : t.line.records = s.line.records) :
    SameButRecords (t.setLine { t.line with judged := s.line.judged }) (admittedJudged s t) := by
  have c : Closed t := h.closed.keep o (by unfold recordRoom; rw [r])
  unfold admittedJudged
  refine SameButRecords.restore _ ?_
  split
  · exact SameButRecords.refl t
  · exact admission_sameRecords _ _ t c

/-- Where a wait has begun in a frame's step, its end leaves no record that waits and could enter (R23). -/
theorem admittedJudged_settled {s t : State} (h : HasFrames t) (w : (waiting t).all (isWaiting s) = false) :
    Settled (admittedJudged s t) := by
  unfold admittedJudged
  rw [if_neg (by simp [w])]
  exact admitRecords_settled (List.Nodup.filter _ (by decide)) h

/-- Where no wait has begun in a frame's step, its end changes nothing but what was judged within it. -/
theorem admittedJudged_same {s t : State} (h : ∀ p, isWaiting t p = true → isWaiting s p = true) :
    admittedJudged s t = t.setLine { t.line with judged := s.line.judged } := by
  unfold admittedJudged
  rw [if_pos]
  simp only [List.all_eq_true]
  intro p hp
  exact h p (List.mem_filter.1 hp).2

/-! ## Occurrences and STATUS through an admission -/

/-- An account that a stretch leaves as it is keeps what `Occurred` says of it. -/
theorem Occurred.keep {src : Source} {d : BitVec 32} {a : Bool} {s t u : State} (h : Occurred src d a s t)
    (e : u.event.accounts[src] = t.event.accounts[src]) (p : s.line.records <+: t.line.records)
    (q : t.line.records <+: u.line.records) : Occurred src d a s u := by
  unfold Occurred at *
  rw [e, newFrames_trans p q]
  refine ⟨h.1, h.2.1, h.2.2.1, h.2.2.2.imp id fun ⟨x, y, f, hf, k⟩ => ⟨x, y, f, List.mem_append_left _ hf, k⟩⟩

/-- The one frame of a source's EVENT record (R4, R5, R170). -/
theorem eventRecord_frame (n : Nat) (src : Source) (s : State) :
    ∃ f ∈ recordFrames n (eventRecord s src), EventFrame src s.event.accounts[src].count s.event.accounts[src].applied
      s.event.accounts[src].firstTime s.event.accounts[src].detail f := by
  refine ⟨_, List.mem_singleton.2 rfl, rfl, rfl, ?_, ?_⟩
  · have h : ((routeOf s src).map (·.val)).getD 255 ≤ 255 := by
      cases routeOf s src with
      | none => exact Nat.le_refl _
      | some k => have := k.isLt; simp; omega
    have l := src.isLt
    show (BitVec.ofNat 16 (src.val * 256 + ((routeOf s src).map (·.val)).getD 255)).toNat / 256 = src.val
    rw [BitVec.toNat_ofNat]; omega
  · cases h : s.event.accounts[src].applied <;> simp [wBytes, bit, w32, wordsOf32, w16]

theorem enterRecord_account (r : RecordBody) (s : State) (q : Source) :
    (enterRecord r s).event.accounts[q] = s.event.accounts[q] := rfl

/-- A producer but EVENT leaves the accounts as they are. -/
theorem admitOne_account {p : Producer} (r : RecordBody) (s : State) (h : p ≠ .event) (q : Source) :
    (admitOne p r s).event.accounts[q] = s.event.accounts[q] := by
  cases p with
  | event => exact absurd rfl h
  | strata => exact congrArg (fun e : EventState => e.accounts[q]) (releaseStrata_event _)
  | _ => rfl

/-- As the EVENT producer's record enters, its source's pending flag and count are cleared (R23, R170). -/
theorem admitOne_event (r : RecordBody) {s : State} {x : Source} (h : lowestPending s = some x) :
    admitOne .event r s = setAccount x s.event.accounts[x].entered (enterRecord r s) := by
  show (match lowestPending (enterRecord r s) with | some src => _ | none => _) = _
  rw [show lowestPending (enterRecord r s) = some x from h]
  rfl

/-- An occurrence of a source that the admission itself does not raise is still one after it: the source stays pending,
or its record has entered (R23). -/
theorem Occurred.admission {src : Source} {d : BitVec 32} {a : Bool} {s : State} (hp : src ≠ srcPumpClamp)
    (hq : src ≠ srcQueueFull) (n : Nat) : ∀ judged t, s.line.records <+: t.line.records → Occurred src d a s t →
    Occurred src d a s (admission n judged t) := by
  induction n with
  | zero => exact fun _ t _ h => h
  | succ n ih =>
    intro judged t g h
    unfold Machine.admission
    split
    · next p r e =>
      have adm := admitOne_admits p r t (admissible_fits e)
      refine ih _ _ (g.trans adm.grows) ?_
      by_cases pe : p = .event
      · subst pe
        have o := offered_of_admissible e
        simp only [offeredRecord, Option.map_eq_some_iff] at o
        obtain ⟨x, hx, rfl⟩ := o
        by_cases xs : x = src
        · subst xs
          have pend : t.event.accounts[x].pending = true := by
            have := List.find?_some hx; simpa using this
          have acc : (admitOne .event (eventRecord t x) t).event.accounts[x] = t.event.accounts[x].entered := by
            rw [admitOne_event _ hx, setAccount_account, if_pos rfl]
          obtain ⟨h1, h2, h3, h4⟩ := h
          have hc := (h4.resolve_right fun k => by rw [k.1] at pend; cases pend).2
          refine ⟨by rw [acc]; exact h1, by rw [acc]; exact h2, by rw [acc]; exact h3,
            .inr ⟨by rw [acc]; rfl, by rw [acc]; rfl, ?_⟩⟩
          obtain ⟨f, hf, k⟩ := eventRecord_frame t.line.serial x t
          refine ⟨f, ?_, ?_⟩
          · rw [newFrames_trans g adm.grows]
            refine List.mem_append_right _ ?_
            have : newFrames t (admitOne .event (eventRecord t x) t) = recordFrames t.line.serial (eventRecord t x) := by
              rw [admitOne_event _ hx]; exact List.drop_left
            rwa [this]
          · rw [← hc, ← h1, ← h2, ← h3]; exact k
        · refine h.keep ?_ g adm.grows
          rw [admitOne_event _ hx, setAccount_account, if_neg fun k => xs k.symm]; rfl
      · exact h.keep (admitOne_account r t pe src) g adm.grows
    · split
      · next p u =>
        have ev := occurNat_eventOnly srcQueueFull p.code t
        have gr : t.line.records <+: (occurNat srcQueueFull p.code t).line.records := by rw [ev.line]
        refine ih _ _ (g.trans gr) (h.keep ?_ g gr)
        exact (raise_account _ t src hp).trans (if_neg hq)
      · exact h

/-- An occurrence in a step, at its end (R23, R168). -/
theorem Occurred.admitted {src : Source} {d : BitVec 32} {a : Bool} {s t : State} (hp : src ≠ srcPumpClamp)
    (hq : src ≠ srcQueueFull) (g : s.line.records <+: t.line.records) (h : Occurred src d a s t) (s' : State) :
    Occurred src d a s (admitted s' t) := by
  unfold Machine.admitted
  split
  · exact h
  · exact h.admission hp hq _ _ _ g

/-- An occurrence in a frame's step, at its end (R23, R168). -/
theorem Occurred.admittedJudged {src : Source} {d : BitVec 32} {a : Bool} {s t : State} (hp : src ≠ srcPumpClamp)
    (hq : src ≠ srcQueueFull) (g : s.line.records <+: t.line.records) (h : Occurred src d a s t) (s' : State) :
    Occurred src d a s (admittedJudged s' t) := by
  unfold Machine.admittedJudged
  dsimp only
  show Occurred src d a s (if _ then _ else _)
  split
  · exact h
  · exact Occurred.admission hp hq _ _ _ g h

/-- The first frame of a STATUS record has its cause (R8). -/
theorem statusRecord_frame (n : Nat) (cause : StatusCause) (s : State) :
    ∃ f ∈ recordFrames n (statusRecord s cause), StatusFrame cause f := by
  refine ⟨_, List.mem_cons_self, rfl, rfl, ?_, rfl⟩
  show (BitVec.ofNat 16 (n * 256 + 0)).toNat % 256 = 0
  rw [BitVec.toNat_ofNat]; omega

/-- A STATUS due flag through an admission: it stays due with its cause, or its record enters (R23, R24). -/
theorem statusMade_admission {cause : StatusCause} {s : State} (n : Nat) : ∀ judged t,
    s.line.records <+: t.line.records → StatusMade cause s t → StatusMade cause s (admission n judged t) := by
  have later : ∀ {t u : State}, s.line.records <+: t.line.records → t.line.records <+: u.line.records →
      (∃ f ∈ newFrames s t, StatusFrame (s.line.statusDue.getD cause) f) →
      ∃ f ∈ newFrames s u, StatusFrame (s.line.statusDue.getD cause) f := fun g k ⟨f, hf, x⟩ =>
    ⟨f, by rw [newFrames_trans g k]; exact List.mem_append_left _ hf, x⟩
  induction n with
  | zero => exact fun _ t _ h => h
  | succ n ih =>
    intro judged t g h
    unfold admission
    split
    · next p r e =>
      have adm := admitOne_admits p r t (admissible_fits e)
      refine ih _ _ (g.trans adm.grows) ?_
      rcases h with h | h
      · by_cases ps : p = .status
        · subst ps
          have o := offered_of_admissible e
          simp only [offeredRecord, Option.map_eq_some_iff] at o
          obtain ⟨c, hc, rfl⟩ := o
          obtain rfl : c = s.line.statusDue.getD cause := Option.some.inj (hc.symm.trans h)
          obtain ⟨f, hf, k⟩ := statusRecord_frame t.line.serial (s.line.statusDue.getD cause) t
          refine .inr ⟨f, ?_, k⟩
          rw [newFrames_trans g adm.grows]
          refine List.mem_append_right _ ?_
          have : newFrames t (admitOne .status (statusRecord t (s.line.statusDue.getD cause)) t) =
              recordFrames t.line.serial (statusRecord t (s.line.statusDue.getD cause)) := List.drop_left
          rwa [this]
        · refine .inl (Eq.trans ?_ h)
          cases p with
          | status => exact absurd rfl ps
          | strata =>
            show (releaseOffered .strata (enterRecord r t)).line.statusDue = _
            rw [releaseStrata_line]; rfl
          | event =>
            simp only [admitOne, releaseOffered]
            split <;> rfl
          | _ => rfl
      · exact .inr (later g adm.grows h)
    · split
      · next p u =>
        have ev := occurNat_eventOnly srcQueueFull p.code t
        have gr : t.line.records <+: (occurNat srcQueueFull p.code t).line.records := by rw [ev.line]
        refine ih _ _ (g.trans gr) ?_
        rcases h with h | h
        · exact .inl (raise_keepsDue _ t _ h)
        · exact .inr (later g gr h)
      · exact h

/-- STATUS that has become due in a step, at its end (R23, R24). -/
theorem StatusMade.admitted {cause : StatusCause} {s t : State} (g : s.line.records <+: t.line.records)
    (h : StatusMade cause s t) (s' : State) : StatusMade cause s (admitted s' t) := by
  unfold Machine.admitted
  split
  · exact h
  · exact statusMade_admission _ _ _ g h

end Sys2Proof.Machine
end

