-- ==== Sys2Proof/Laws/Governor.lean ====
section
/-! SUPPORT. What the command governor and the FIELD transmitter can do, said once: an occurrence brings no injections but
those that stop the pumps, a decision on a rig command changes the event unit and the claim alone, and serving the FIELD
line offers no record. -/

namespace Sys2Proof.Machine

/-! ## The injections that occurrences bring -/

/-- Every injection that waits has waited before, or tells a pump role 0. -/
def OnlyStops (s t : State) : Prop :=
  ∀ j ∈ t.line.injections, j ∈ s.line.injections ∨ ((j.role = .pump1 ∨ j.role = .pump2) ∧ value j.frame 0 = 0)

theorem OnlyStops.refl (s : State) : OnlyStops s s := fun _ h => .inl h

theorem OnlyStops.trans {s t u : State} (h : OnlyStops s t) (k : OnlyStops t u) : OnlyStops s u :=
  fun j m => (k j m).elim (h j) .inr

theorem OnlyStops.same {s t : State} (h : t.line.injections = s.line.injections) : OnlyStops s t :=
  fun _ m => .inl (h ▸ m)

/-- What a list of waiting injections holds after one more (R19). -/
theorem placeInjection_mem {i j : Injection} {l : List Injection} (h : j ∈ placeInjection i l) : j = i ∨ j ∈ l := by
  unfold placeInjection at h
  split at h
  · obtain ⟨x, hx, rfl⟩ := List.mem_map.1 h
    split
    · exact .inl rfl
    · exact .inr hx
  · split at h <;> rw [List.mem_append, List.mem_singleton] at h
    · exact h.symm
    · exact h.elim (fun a => .inr (List.mem_of_mem_drop a)) .inl

section
variable {occ : Occ → State → State} (hocc : ∀ o s, OnlyStops s (occ o s))
include hocc

theorem stopPumpWith_stops {r : Role} (hr : r = .pump1 ∨ r = .pump2) (s : State) :
    OnlyStops s (stopPumpWith occ r s) := by
  unfold stopPumpWith
  split
  · intro j m
    rcases placeInjection_mem m with rfl | m
    · exact .inr ⟨hr, rfl⟩
    · exact .inl m
  · exact hocc _ _
  · exact OnlyStops.refl s

theorem raiseClassWith_stops (k : AlarmClass) (s : State) : OnlyStops s (raiseClassWith occ k s) := by
  unfold raiseClassWith activationNoticeWith
  have base : OnlyStops s (statusDue .cls (setClass k .active s)) := OnlyStops.same rfl
  split
  · exact OnlyStops.refl s
  · split
    · exact (base.trans (stopPumpWith_stops hocc (.inl rfl) _)).trans (stopPumpWith_stops hocc (.inr rfl) _)
    · exact base

theorem occurWith_stops (o : Occ) (s : State) : OnlyStops s (occurWith occ o s) := by
  unfold occurWith
  have base : OnlyStops s (takeOccurrence o s) := OnlyStops.same rfl
  split
  · exact base
  · exact base.trans (raiseClassWith_stops hocc _ _)

end

theorem occurFuel_stops (n : Nat) : ∀ o s, OnlyStops s (occurFuel n o s) := by
  induction n with
  | zero => exact fun _ _ => OnlyStops.same rfl
  | succ n ih => exact occurWith_stops ih

/-- An occurrence brings no injections but those of STOP_PUMPS (R183). -/
theorem raise_stops (o : Occ) (s : State) : OnlyStops s (raise o s) := occurFuel_stops _ o s

/-! ## A decision on a HOIST, SLIPS, TONG or HANDLER command -/

/-- A rig command has been decided: the event unit's share and the claim may differ; the frame goes unchanged, or, in
GOVERN and with the claim as it was, is dropped (R180, R185 to R187, R189). -/
structure RigDecided (f : Frame) (s : State) (d : Decision) : Prop where
  events : EventOnly { s with gov := d.2.gov } d.2
  frame : d.1 = some f ∨ (d.1 = none ∧ applied s = true ∧ d.2.gov = s.gov)
  stops : OnlyStops s d.2
  conds : ∀ q, cond d.2 q = cond s q

/-- A frame that is sent at once, the claim alone written or nothing. -/
theorem rigDecided_sent (f : Frame) (s : State) (g : GovState) : RigDecided f s (some f, { s with gov := g }) :=
  ⟨EventOnly.refl _, .inl rfl, OnlyStops.same rfl, fun _ => rfl⟩

theorem refuse_rigDecided (src : Source) (c a : Nat) (f : Frame) (s : State) : RigDecided f s (refuse src c a f s) := by
  have e : EventOnly s (refuse src c a f s).2 := raise_eventOnly _ _
  refine ⟨by rw [e.gov]; exact e, ?_, raise_stops _ _, raise_cond _ _⟩
  by_cases h : applied s = true
  · exact .inr ⟨by simp [refuse, h], h, e.gov⟩
  · exact .inl (by simp [refuse, h])

theorem governHandler_rigDecided (f : Frame) (v : Nat) (s : State) : RigDecided f s (governHandler f v s) := by
  unfold governHandler
  split
  · split
    · exact rigDecided_sent f s _
    · exact rigDecided_sent f s s.gov
  · next c a _ =>
    have k := refuse_rigDecided srcWellCentreRefused c a f s
    dsimp only
    split
    · next h =>
      have e : EventOnly s (refuse srcWellCentreRefused c a f s).2 := raise_eventOnly _ _
      exact ⟨⟨e.now, e.pending, e.noticeOrder, e.line, e.channels, e.depth, e.rod, e.circ, e.lag, e.interval, e.bill, rfl,
        e.tables, e.size, e.quiet, e.counts⟩, .inl (by simp [refuse, h.2.1]), k.stops, k.conds⟩
    · exact k

/-- What the governor decides of a HOIST, SLIPS, TONG or HANDLER command (R179, R180). -/
theorem govern_rigDecided {s : State} {f : Frame} {r : Role} (h : roleOf s f = some r) (h1 : r ≠ .pump1)
    (h2 : r ≠ .pump2) : RigDecided f s (govern f s) := by
  have sent : RigDecided f s (some f, s) := rigDecided_sent f s s.gov
  have refused := fun src c a => refuse_rigDecided src c a f s
  unfold govern
  rw [h]
  dsimp only
  unfold governRole
  split
  · exact sent
  · split
    · exact absurd rfl h1
    · exact absurd rfl h2
    · unfold governHoist
      repeat' split
      all_goals first | exact sent | exact refused _ _ _
    · unfold governSlips
      repeat' split
      all_goals first | exact sent | exact refused _ _ _ | (dsimp only; split <;> first | exact sent | exact refused _ _ _)
    · unfold governTong
      split
      · exact refused _ _ _
      · exact sent
    · exact governHandler_rigDecided f _ s

/-! ## Serving the FIELD line offers no record -/

/-- The ROD, TICKET and STRATA offers and the record queue are as they were. -/
structure OffersNothing (s t : State) : Prop where
  offers : SameOffers s t
  records : t.line.records = s.line.records

theorem OffersNothing.of {s t : State} (r : t.rod.out = s.rod.out) (b : t.bill.outBuffer = s.bill.outBuffer)
    (l : t.lag = s.lag) (q : t.line.records = s.line.records) : OffersNothing s t :=
  ⟨⟨r, b, by rw [l], by rw [l]⟩, q⟩

theorem OffersNothing.refl (s : State) : OffersNothing s s := .of rfl rfl rfl rfl

theorem OffersNothing.trans {s t u : State} (h : OffersNothing s t) (k : OffersNothing t u) : OffersNothing s u :=
  ⟨h.offers.trans k.offers, k.records.trans h.records⟩

theorem EventOnly.offersNothing {s t : State} (h : EventOnly s t) : OffersNothing s t :=
  .of (by rw [h.rod]) (by rw [h.bill]) h.lag (by rw [h.line])

theorem remember_offersNothing (r : Role) (v : Option Nat) (s : State) : OffersNothing s (remember r v s) := by
  unfold remember
  split <;> exact .of rfl rfl rfl rfl

theorem clamp_offersNothing (r : Role) (v : Option Nat) (d : BitVec 32) (s : State) :
    OffersNothing s (remember r v (govOccur srcPumpClamp d s)) :=
  (raise_eventOnly _ _).offersNothing.trans (remember_offersNothing _ _ _)

theorem governPump_offersNothing (r : Role) (f : Frame) (v : Nat) (s : State) :
    OffersNothing s (governPump r f v s).2 := by
  unfold governPump
  repeat' split
  all_goals first | exact remember_offersNothing _ _ _ | exact clamp_offersNothing _ _ _ _

theorem govern_offersNothing (f : Frame) (s : State) : OffersNothing s (govern f s).2 := by
  cases h : roleOf s f with
  | none => unfold govern; rw [h]; exact .refl s
  | some r =>
    by_cases h1 : r = .pump1 ∨ r = .pump2
    · unfold govern
      rw [h]
      unfold governRole
      cases f.values with
      | nil => exact .refl s
      | cons w ws => rcases h1 with rfl | rfl <;> exact governPump_offersNothing _ _ _ _
    · have e := (govern_rigDecided h (fun k => h1 (.inl k)) (fun k => h1 (.inr k))).events
      exact .of (by rw [e.rod]) (by rw [e.bill]) e.lag (by rw [e.line])

theorem beginInjection_offersNothing (i : Injection) (s : State) : OffersNothing s (beginInjection i s).2 := by
  unfold beginInjection
  dsimp only
  repeat' split
  all_goals first | exact .refl s | exact remember_offersNothing _ _ _ | exact clamp_offersNothing _ _ _ _

/-- What the FIELD transmitter serves offers no ROD, TICKET or STRATA record and leaves the record queue (R19). -/
theorem serveField_offersNothing (n : Nat) : ∀ s, OffersNothing s (serveField n s) := by
  induction n with
  | zero => exact .refl
  | succ n ih =>
    intro s
    unfold serveField
    split
    · next i l _ =>
      have k := beginInjection_offersNothing i (s.setLine { s.line with injections := l })
      exact ⟨⟨k.offers.rod, k.offers.ticket, k.offers.hold, k.offers.queue⟩, k.records⟩
    · next f l _ _ =>
      have k := govern_offersNothing f (s.setLine { s.line with downstream := l })
      have k' : OffersNothing s (govern f (s.setLine { s.line with downstream := l })).2 :=
        ⟨⟨k.offers.rod, k.offers.ticket, k.offers.hold, k.offers.queue⟩, k.records⟩
      split
      · next e => rw [e] at k'; exact ⟨⟨k'.offers.rod, k'.offers.ticket, k'.offers.hold, k'.offers.queue⟩, k'.records⟩
      · next e => rw [e] at k'; exact k'.trans (ih _)
    · exact .refl s

end Sys2Proof.Machine
end

