-- ==== Sys2Proof/Tests/Slice0.lean ====
section
/-! SUPPORT. Tests: ill-formed commands are refused, the spec's worked figures come out, and for every statement with
hypotheses a state that meets them. -/

namespace Sys2Proof.Machine.Tests

-- One theorem after another: each thread of its own would take a stack of its own.
set_option Elab.async false

/-! ## Well-formed commands (R1) -/

/-- A frame of COUNT 1 with a byte missing is no whole frame. -/
theorem test_arrival_short_refused : Instr.wf (.frameArrival .field [0x02, 0, 0, 0, 0, 0]) = false := by decide

/-- A frame with a byte too many is no whole frame. -/
theorem test_arrival_long_refused : Instr.wf (.frameArrival .cab [0x00, 0, 0, 0, 0, 0]) = false := by decide

/-- A whole frame is no short frame. -/
theorem test_short_whole_refused : Instr.wf (.shortFrame .cab [0x00, 0, 0, 0, 0]) = false := by decide

/-- No bytes are no frame. -/
theorem test_empty_refused : (Instr.wf (.shortFrame .cab []) || Instr.wf (.frameArrival .cab [])) = false := by decide

/-- A whole frame of COUNT 0 and a short run of it are well formed. -/
theorem test_well_formed :
    (Instr.wf (.frameArrival .field [0x00, 0, 0, 0, 0]) && Instr.wf (.shortFrame .field [0x00])) = true := by decide

/-! ## The spec's worked figures -/

/-- R3: the check value of the nine bytes 49 to 57 is 65,256. -/
theorem test_crc : crc [49, 50, 51, 52, 53, 54, 55, 56, 57] = 65256 := by decide +kernel

/-- R3: a SAMPLE frame from node 5, TAG 7, with the one value 0x1234, byte by byte. -/
theorem test_layout : bodyBytes { kind := 1, governed := false, node := 5, tag := 7, values := [0x1234] } =
    [0x22, 0x05, 0x07, 0x12, 0x34] := by decide

/-- Chapter 2, worked calibration: 11,180 kPa from raw 30,000. -/
theorem test_calibration : calibrate 30000 6554 58982 0 25000 (0, 40000) = (11180, false) := by decide

/-- Chapter 2, worked calibration: raw 62,000 is clamped to 25,000 kPa with the range mark. -/
theorem test_calibration_clamped : calibrate 62000 6554 58982 0 25000 (0, 40000) = (25000, true) := by decide

/-- Chapter 2, worked calibration: a half is rounded away from zero on a falling line. -/
theorem test_calibration_falling : calibrate 16001 1000 61000 30000 0 (0, 40000) = (22499, false) := by decide

/-- Chapter 3, worked figures: W_b of thirty rods in mud of 1,150 kg/m³. -/
theorem test_buoyed : buoyedWeight 36000000 1150 = 30726 := by decide

/-- Chapter 5, worked figures: 45 strokes in 30,000 ms are 90 spm. -/
theorem test_stroke_rate : strokeRate 45 30000 = 90 := by decide

/-- Chapter 6, worked figures: the annular volume below the last section. -/
theorem test_annular_volume :
    overlapSum 450000 0 [{ bottom := 60000, capacity := 64460 }, { bottom := 400000, capacity := 42870 }] / 1000 +
      400000 = 20986900 := by decide

/-- The worked interval of chapter 7 with its sums. -/
def workedInterval : OpenInterval where
  number := 101
  top := 177500
  boundary := some 178000
  step := some 500
  minLength := some 200
  area := some 49087
  bounds := some [40, 80, 150, 250, 350, 500, 800]
  openTime := 0
  sumT := 600000
  sumRot := 90000000000
  sumTorque := 1500000000
  sumSpeed := 36000000
  sumWob := 3000000000
  sumPressure := 7200000000
  sumFlow := 615600000
  sumThrust := 25000000
  loss := false
  saturated := false
  note := 0

/-- Chapter 7, worked interval: E, class, times and means of its record. -/
theorem test_worked_interval :
    let r := buildStrata workedInterval .depthStep 178000 900
    r.energy = 385 ∧ r.cls = some 5 ∧ r.drillTime = 600 ∧ r.revolutions = 600 ∧ r.meanWob = 5000 ∧
      r.meanTorque = 2500 ∧ r.meanSpeed = 60 ∧ r.meanPressure = 12000 ∧ r.meanFlow = 1026 ∧ r.rop = 50 ∧
      r.saturated = false := by decide

/-- Chapter 7, worked interval: over 12 mm it is UNCLASSED with cause 4. -/
theorem test_unclassed : unclassedCause workedInterval 12 = some 4 := by decide

/-- Chapter 8, worked shift: METRES(5, 1), 500 mm at 27,335. -/
theorem test_accrual : TicketLine.empty.accrue 1000 500 27335 =
    { quantity := 500, amount := 13667, carry := 500, saturated := false } := by decide +kernel

/-- Chapter 8, worked shift: METRES(4, 1) of ticket 7, the carry 880 kept from ticket 6. -/
theorem test_accrual_carry :
    ({ quantity := 0, amount := 0, carry := 880, saturated := false } : TicketLine).accrue 1000 190 22310 =
      { quantity := 190, amount := 4239, carry := 780, saturated := false } := by decide

/-- Chapter 10, R186: the release at 800 daN is refused with detail 131,872. -/
theorem test_slips_detail : (BitVec.ofNat 32 (2 * 65536 + 800) : BitVec 32) = 131872 := by decide

/-! ## Points of the spec's text -/

/-- R13: the BYPASS output is asserted while RESET is held, in GOVERN too, and released when the reset completes and the
mode is left. -/
theorem test_reset_held :
    let s := { State.reset with line := { State.reset.line with mode := .govern, bypassOut := false } }
    s.holdReset.line.bypassOut = true ∧ s.powerUp.line.bypassOut = true ∧
      (setMode .observe s.holdReset).line.bypassOut = true ∧ (setMode .observe s).line.bypassOut = false := by
  decide +kernel

/-- R155: a snapshot clears quantity and amount and keeps carry and saturated flag. -/
theorem test_snapshot_clears :
    ({ quantity := 5, amount := 7, carry := 880, saturated := true } : TicketLine).nextTicket =
      { quantity := 0, amount := 0, carry := 880, saturated := true } := by decide

/-! ## States for the statements' hypotheses -/

/-- A request frame for node 0. -/
def request (tag : BitVec 8) (vs : List Word) : Frame :=
  { kind := 4, governed := false, node := 0, tag := tag, values := vs }

/-- A state with one request at the head of the request FIFO. -/
def asking (tag : BitVec 8) (vs : List Word) (s : State) : State :=
  { s with line := { s.line with requests := [request tag vs] } }

/-- Such a state is one whose decoder may take the request. -/
theorem asking_asks (tag : BitVec 8) (vs : List Word) (s : State) (h : s.line.response = none)
    (k : s.line.completion = none) : Asks (asking tag vs s) tag (request tag vs) [] := ⟨rfl, h, k, rfl⟩

/-- Pages of a table, zero but for the words given. -/
def pagesOf (n : Nat) (ps : List (Nat × List Word)) : List Page :=
  (List.range n).map fun i => pageOf ((ps.lookup i).getD [])

/-- A state with an active copy. -/
def active (t : TableNo) (pages : List Page) (s : State) : State :=
  { s with tables := s.tables.set t { s.tables[t] with active := some pages } }

/-- A state in a line mode with both ports UP. -/
def inMode (m : LineMode) (s : State) : State :=
  { s with line := { s.line with
      mode := m
      bypassOut := m == .bypass
      fieldLink := { up := true, everUp := true, timerStart := 0 }
      cabLink := { up := true, everUp := true, timerStart := 0 } } }

/-- A state with a job. -/
def inJob (j : JobState) (s : State) : State := { s with bill := { s.bill with job := j, ticketOpen := j == .opened } }

/-- A state with a channel in a value state, taken at 0 ms. -/
def withChannel (c : Ch) (v : ValueState) (x : Option Nat) (s : State) : State :=
  { s with channels := s.channels.set c { s.channels[c] with state := v, value := x } }

/-- A frame of a kind from or to node 1. -/
def frame (kind : BitVec 3) (tag : BitVec 8) (vs : List Word) : Frame :=
  { kind := kind, governed := false, node := 1, tag := tag, values := vs }

/-- A CHANNEL copy: channels 2, 5 and 10 bound to node 1, TAGs 2, 5 and 10, index 0, stale time 100 ms; the six roles
bound to node 1, TAGs 20 to 25. -/
def channelPages : List Page :=
  pagesOf 17 [(2, [0x0100, 0x0201, 100, 0, 60000, 0, 0, 0, 40000, 500, 0, 0]), (5, [0x0100, 0x0500, 100, 50]),
    (10, [0x0100, 0x0A00, 100]), (16, [0x0114, 0x0115, 0x0116, 0x0117, 0x0118, 0x0119])]

/-- A SETTINGS copy: dwell 5 s, block weight 8,000 N, pump volumes 12,000 mL at 950 ‰, handler clearance 5,000 mm, lower
margin 1,000 mm, slips release 80 %, status period 10 s. -/
def settingsPages : List Page :=
  pagesOf 2 [(0, [100, 10, 100, 50, 500, 20, 60, 5, 0, 8000, 0, 50000]),
    (1, [12000, 950, 12000, 950, 500, 500, 200, 5000, 1000, 80, 10])]

/-- A state in GOVERN with CHANNEL and SETTINGS active and one frame bound for the field. -/
def governing (f : Frame) : State :=
  let s := active 8 settingsPages (active 0 channelPages (inMode .govern State.reset))
  { s with line := { s.line with downstream := [f] } }

/-- The state with MUDPROG active and segment 0 of a maximum pump rate of 120 spm in force. -/
def segment0 (s : State) : State :=
  let u := active 3 (pagesOf 17 [(1, [1, 0, 0, 255, 120, 0, 60])]) s
  { u with circ := { u.circ with segment := some 0 } }

/-- A state with class 7 in a state and latched or not, the condition of source 0 true, and sources 0 to 23 routed to
class 7, the others to NONE. -/
def classed (latch : Word) (c : ClassState) : State :=
  let s := active 1 (pagesOf 4 [(0, List.replicate 12 0x0707), (1, List.replicate 12 0xFFFF),
    (2, List.replicate 8 0xFFFF), (3, [0, 0, 0, 0, 0, 0, 0, latch])]) State.reset
  { s with event := { s.event with
      classes := s.event.classes.set 7 c, accounts := s.event.accounts.set 0 { Account.reset with cond := true } } }

/-- A rod of tag 7. -/
def rod7 (p : RodPlace) : Rod :=
  { tag := 7, cls := 0, length := 6000, place := p, fatigue := 0, entry := if p = .string then some 0 else none,
    inspect := false, runs := 0 }

/-- A state whose string is the one rod of tag 7, and its candidate none. -/
def oneRod : State :=
  { State.reset with rod := { RodState.reset with table := [rod7 .string], string := [7], valid := true } }

/-- A state with a job OPEN, an interval open from 0 mm and the hole at a depth. -/
def drillingJob (hole : Nat) : State :=
  let s := inJob .opened State.reset
  { s with
    depth := { s.depth with hole := hole, clockRuns := true }
    interval := { s.interval with current := some { workedInterval with top := 0, boundary := none } } }

/-- R42: an ABSENT settled channel that is at 4 times the new stale time expires at the activation, and one that is
not stays. -/
theorem test_activation_expires_settled :
    let s := active 0 channelPages State.reset
    let at_ := fun n => { s with
      now := n, channels := s.channels.set 5 { Channel.reset with state := .absentSettled, baseline := some 9 } }
    (channelActivated channelPages (at_ 400)).channels[(5 : Ch)] = Channel.reset ∧
      (channelActivated channelPages (at_ 399)).channels[(5 : Ch)].state = .absentSettled := by decide +kernel

/-- R89: entering BYPASS makes a rate of 0 of a channel that is only settled absent. -/
theorem test_bypass_clears_rate :
    let s := withChannel 0 .absentSettled none (inMode .observe State.reset)
    let t := enterBypass { s with circ := { s.circ with rate1 := some 0, rate2 := some 90 } }
    t.circ.rate1 = none ∧ t.circ.rate2 = none := by decide +kernel

/-- A state after reset but for a number of frames in the record queue. -/
def filled (n : Nat) : State :=
  { State.reset with line := { State.reset.line with records := List.replicate n (frame 6 1 []) } }

/-- A state with a ticket of two frames waiting and one place in the record queue. -/
def waitingTicket (s : State) : State :=
  { s with
    bill := { s.bill with outBuffer := some { type := 3, frames := [[], []] } }
    line := { s.line with records := List.replicate 63 (frame 6 1 []) } }

/-- R23: with one place left, a make-up out of its torque window brings an EVENT and a ROD record; the ROD record enters,
and the EVENT record waits with RECORD_QUEUE_FULL of its type. -/
theorem test_begin_of_wait :
    let s := active 4 (pagesOf 16 []) (filled 63)
    let u := { s with rod := { s.rod with table := [rod7 .rack], candidate := some 7, valid := true } }
    let t := admittedJudged u (makeup 5 (beginJudging u))
    t.line.records.length = 64 ∧ t.line.records.getLast?.map (·.tag) = some 1 ∧ t.rod.out = [] ∧
      t.event.accounts[srcMakeupTorque].pending = true ∧ t.event.accounts[srcQueueFull].pending = true ∧
      t.event.accounts[srcQueueFull].detail = 4 := by decide +kernel

/-- A string of rods of class 0 with the tags from 1 up, and the record queue full. -/
def tripOut (rods : Nat) : State :=
  let tags := (List.range rods).map (· + 1)
  let s := active 4 (pagesOf 16 [(0, [1, 0, 0, 0, 0, 60000])]) (filled 64)
  { s with rod := { s.rod with
      table := tags.map fun n => { rod7 .string with tag := n }, string := tags, valid := true } }

/-- R23, R80, R87: with the record queue full and nothing waiting, 16 break-outs of one delta fill the out-queue, with
RECORD_QUEUE_FULL for the first ROD record and for the EVENT record that this makes pending; the record of the 17th is
lost, and source 55 has detail 257. -/
theorem test_rod_record_lost :
    let s := tripOut 17
    let t := admittedJudged s (breakouts 17 (beginJudging s))
    t.rod.out.length = 16 ∧ t.rod.string = [] ∧ t.event.accounts[srcQueueFull].detail = 257 ∧
      t.event.accounts[srcQueueFull].count = 3 ∧ t.line.judged = [] := by decide +kernel

/-- R23, R81: with the record queue full and nothing waiting, a rod that retires makes its EVENT record wait before its ROD
record, whose type is the last detail. -/
theorem test_rod_waits_after_event :
    let s := { tripOut 1 with tables := State.reset.tables }
    let t := admittedJudged s (breakouts 1 (beginJudging s))
    t.event.accounts[srcRodRetired].pending = true ∧ t.event.accounts[srcQueueFull].detail = 1 ∧
      t.event.accounts[srcQueueFull].count = 2 ∧ t.rod.out.length = 1 := by decide +kernel

/-- Chapter 1, a ticket waiting for room: with 60 frames in the queue a ticket of 7 begins to wait, with RECORD_QUEUE_FULL
for it and for the EVENT record that this brings; a ROD record then enters ahead of both. -/
theorem test_ticket_waits_for_room :
    let s := filled 60
    let t := admitted s (s.setBill { s.bill with outBuffer := some { type := 3, frames := List.replicate 7 [] } })
    let u := admitted t (offerRodRecord { type := 1, frames := [[]] } t)
    t.line.records.length = 60 ∧ t.event.accounts[srcQueueFull].count = 2 ∧
      t.event.accounts[srcQueueFull].detail = 4 ∧ u.line.records.length = 61 ∧
      u.event.accounts[srcQueueFull].count = 2 ∧ u.bill.outBuffer.isSome = true := by decide +kernel

/-! ## Witnesses -/

/-- A frame of 15 values is read back. -/
theorem witness_frameBytesReadBack :
    let f := frame 1 255 (List.replicate 15 0xABCD)
    f.values.length ≤ 15 ∧ parseFrame (frameBytes f) = some f := by decide +kernel

/-- A short frame, and a whole one with a wrong check. -/
theorem witness_failedCheckIsDropped :
    isShortFrame [0, 0, 0, 0] = true ∧ isWholeFrame [0, 0, 0, 0, 1] = true ∧ parseFrame [0, 0, 0, 0, 1] = none ∧
      Settled State.reset := by decide +kernel

/-- BYPASS; a forward FIFO with one place; a full one. -/
theorem witness_fieldFrameIsForwarded :
    let f := frame 2 1 []
    let s := inMode .observe State.reset
    let full := fun n => { s with line := { s.line with forward := List.replicate n f } }
    f.values.length ≤ 15 ∧ State.reset.line.mode = .bypass ∧ f.kind ≠ 1 ∧ (full 15).line.mode ≠ .bypass ∧
      (full 15).line.forward.length < 16 ∧ 16 ≤ (full 16).line.forward.length ∧ Settled State.reset ∧
      Settled (full 15) ∧ Settled (full 16) := by decide +kernel

/-- The request FIFO with one place and full; other frames in BYPASS, with one place and full. -/
theorem witness_cabFrameIsDisposedOf :
    let f := request 19 []
    let g := frame 2 1 []
    let s := inMode .observe State.reset
    let r := fun n => { s with line := { s.line with requests := List.replicate n f } }
    let d := fun n => { s with line := { s.line with downstream := List.replicate n g } }
    f.kind = 4 ∧ f.node = 0 ∧ (r 3).line.requests.length < 4 ∧ 4 ≤ (r 4).line.requests.length ∧
      ¬(g.kind = 4 ∧ g.node = 0) ∧ State.reset.line.mode = .bypass ∧ (d 7).line.mode ≠ .bypass ∧
      (d 7).line.downstream.length < 8 ∧ 8 ≤ (d 8).line.downstream.length ∧ Settled (r 3) ∧ Settled (r 4) ∧
      Settled State.reset ∧ Settled (d 7) ∧ Settled (d 8) := by decide +kernel

/-- A counter that settles and one that accepts, a discrete code out of its set, a frame too short; a forward FIFO
with one place and a full one. -/
theorem witness_sampleFrameFeedsChannels :
    let s := active 0 channelPages (inMode .observe State.reset)
    let live := withChannel 5 .live (some 3) s
    let f := frame 1 5 [7]
    f.values.length ≤ 15 ∧ f.kind = 1 ∧ s.line.mode ≠ .bypass ∧
      binding s 5 = some { node := 1, tag := 5, index := 0 } ∧ f.values[0]? = some 7 ∧
      s.channels[(5 : Ch)].state = .absentUnsettled ∧ live.channels[(5 : Ch)].state = .live ∧
      binding s 10 = some { node := 1, tag := 10, index := 0 } ∧ channelKind 10 = .discrete ∧ discreteMax 10 < 2 ∧
      (frame 1 5 []).values[0]? = none ∧ binding s 0 = none ∧
      (List.replicate 15 f).length < 16 ∧ 16 ≤ (List.replicate 16 f).length := by decide +kernel

/-- A port at 2,000 ms, one at 1,999 ms, one DOWN. -/
theorem witness_linkFallsDown :
    let s := { inMode .observe State.reset with now := 2000 }
    s.line.fieldLink.up = true ∧ s.line.cabLink.up = true ∧ 2000 ≤ s.now - s.line.fieldLink.timerStart ∧
      2000 ≤ s.now - s.line.cabLink.timerStart ∧ 1999 - s.line.fieldLink.timerStart < 2000 ∧
      State.reset.line.cabLink.up = false ∧ Settled s ∧ Settled State.reset := by decide +kernel

/-- A DOWN port; a response; a forwarded frame at run 7; a record at run 8, with nothing waiting, with a ticket that
fits now and with one that does not; nothing. -/
theorem witness_cabArbiterBegins :
    let s := inMode .observe State.reset
    let f := frame 1 1 []
    let k : RecordBody := { type := 3, frames := [[], []] }
    let ticket := { s with bill := { s.bill with outBuffer := some k } }
    waiting s = [] ∧ ticket.rod.out = [] ∧ ticket.bill.outBuffer = some { type := 3, frames := [[], []] } ∧
      (List.replicate 62 f).length + k.frames.length ≤ 64 ∧ 64 - (List.replicate 63 f).length < k.frames.length ∧
      State.reset.line.cabLink.up = false ∧ s.line.cabLink.up = true ∧
      { s.line with response := some f }.response = some f ∧ s.line.response = none ∧
      { s.line with forward := [f], forwardedRun := 7, records := [f] }.forwardedRun < 8 ∧
      8 ≤ { s.line with forward := [f], forwardedRun := 8, records := [f] }.forwardedRun ∧
      s.line.forward = [] ∧ s.line.records = [] := by decide +kernel

/-- BYPASS; a waiting HOIST injection; a waiting pump injection at its limit of 120 spm and one above it, in GOVERN
and in OBSERVE, and one without a limit; a frame that is no role command; a role command without a value; nothing. -/
theorem witness_fieldTransmitterServes :
    let f := frame 2 99 [5]
    let s := governing f
    let i : Injection := { role := .hoist, frame := f }
    State.reset.line.mode = .bypass ∧ s.line.fieldLink.up = true ∧ s.line.mode ≠ .bypass ∧ i.role ≠ .pump1 ∧
      i.role ≠ .pump2 ∧ s.line.injections = [] ∧ s.line.downstream = f :: [] ∧ roleOf s f = none ∧
      (frame 2 20 []).values = [] ∧ roleOf s (frame 2 20 []) = some .pump1 ∧ pumpLimit s .pump2 = none ∧
      pumpLimit (segment0 s) .pump2 = some 120 ∧ (segment0 s).line.mode = .govern ∧
      (segment0 (inMode .observe s)).line.mode = .observe ∧ value (frame 2 21 [120]) 0 ≤ 120 ∧
      120 < value (frame 2 21 [121]) 0 ∧ Settled (segment0 s) := by decide +kernel

/-- A pump 2 command without a limit, at its limit of 120 spm and above it, in GOVERN and in OBSERVE. -/
theorem witness_pumpCommandIsHeldToLimit :
    let f := frame 2 21 [121]
    let u := segment0 (governing f)
    let v := { u with line := { u.line with mode := .observe, bypassOut := false } }
    u.line.fieldLink.up = true ∧ u.line.mode = .govern ∧ v.line.mode = .observe ∧ u.line.injections = [] ∧
      u.line.downstream = f :: [] ∧ roleOf u f = some .pump2 ∧ roleOf v (frame 2 20 [120]) = some .pump1 ∧
      f.values = 121 :: [] ∧ pumpLimit (governing f) .pump2 = none ∧ pumpLimit u .pump2 = some 120 ∧
      pumpLimit v .pump2 = some 120 ∧ (120 : Word).toNat ≤ 120 ∧ 120 < (121 : Word).toNat ∧
      Settled u ∧ Settled v := by decide +kernel

/-- In GOVERN and in segment 0, of maximum 120 spm and hold rate 60 spm: a pump 2 command of 121 spm with
PRESSURE_HOLD false and true, and a pump 1 injection of 121 spm. -/
theorem witness_pumpCommandLeavesWithinMaximum :
    let f := frame 2 21 [121]
    let u := segment0 (governing f)
    let held := { u with event := { u.event with
      accounts := u.event.accounts.set 33 { Account.reset with cond := true } } }
    let i : Injection := { role := .pump1, frame := frame 2 20 [121] }
    let waits := { u with line := { u.line with injections := [i] } }
    let begun := fun (s : State) (g : Frame) =>
      ∃ t, exec .fieldTransmitBegin { s with line := { s.line with fieldOut := none } } = .next t ∧ t.line.fieldOut = some g
    begun u { frame 2 21 [120] with governed := true } ∧ begun held { frame 2 21 [60] with governed := true } ∧
      begun waits (frame 2 20 [120]) ∧ u.line.mode = .govern ∧ held.line.mode = .govern ∧ u.line.injections = [] ∧
      i.role = .pump1 ∧ roleOf u (frame 2 21 [120]) = some .pump2 ∧ cond held srcPressureHold = true ∧
      u.circ.segment = some 0 ∧ pageWord (activePages u tMudprog) 1 4 = 120 ∧
      pageWord (activePages u tMudprog) 1 6 = 60 :=
  ⟨⟨_, rfl, by decide +kernel⟩, ⟨_, rfl, by decide +kernel⟩, ⟨_, rfl, by decide +kernel⟩, by decide +kernel⟩

/-- A HOIST, a SLIPS, a TONG and a HANDLER command in GOVERN and in OBSERVE: a lowering with HOLD_HOIST_LOWER in
force, with the handler claiming and the block unknown, and free; the hook carrying exactly 80 % of W_b, and less; the
tong held, without slips, with slips and with and without candidate and rod; the handler held, and each holder of the
well centre. -/
theorem witness_rigCommandsAreGoverned :
    let s := governing (frame 2 22 [0xFFFF])
    let held := active 1 (pagesOf 4 [(2, [0, 0, 0, 0, 0, 0, 0, 0, 0x1C00])]) s
    let hooked := withChannel 6 .live (some 3340) { s with depth := { s.depth with buoyed := 31750 } }
    let slips := withChannel 10 .live (some 1) s
    let inForce := { held with event := { held.event with classes := held.event.classes.set 0 .active } }
    s.line.mode = .govern ∧ s.line.mode ≠ .bypass ∧ (inMode .observe s).line.mode ≠ .bypass ∧
      roleOf s (frame 2 25 [1]) = some .handler ∧ actionInForce inForce .holdHandler = true ∧
      actionInForce s .holdHandler = false ∧ s.gov.holder = .none ∧
      { s.gov with holder := .topDrive, lastBlock := some 65535 }.lastBlock = some 65535 ∧
      roleOf s (frame 2 22 [0xFFFF]) = some .hoist ∧ roleOf s (frame 2 23 [0]) = some .slips ∧
      roleOf s (frame 2 24 [1]) = some .tong ∧ (0xFFFF : Word).toInt < 0 ∧
      actionInForce inForce .holdHoistLower = true ∧ actionInForce inForce .holdTong = true ∧
      actionInForce s .holdHoistLower = false ∧ actionInForce s .holdTong = false ∧ Machine.held s 7 = none ∧
      ({ s.gov with holder := .handler }).holder = .handler ∧ s.gov.holder ≠ .handler ∧
      s.channels[(6 : Ch)].state ≠ .live ∧ hooked.channels[(6 : Ch)].state = .live ∧
      Machine.held hooked 6 = some 3340 ∧ settings hooked = some (readSettings settingsPages) ∧
      hooked.depth.buoyed * (readSettings settingsPages).slipsReleasePercent = (3340 * 10 - 8000) * 100 ∧
      (3339 * 10 - 8000) * 100 < hooked.depth.buoyed * (readSettings settingsPages).slipsReleasePercent ∧
      s.channels[(10 : Ch)].state ≠ .live ∧ slips.channels[(10 : Ch)].state = .live ∧
      Machine.held slips 10 ≠ some 0 ∧ slips.rod.candidate = none ∧ slips.rod.string = [] ∧
      oneRod.rod.string ≠ [] ∧ ({ slips.rod with candidate := some 7 }).candidate ≠ none := by decide +kernel

/-- A raising HOIST command and a present command that are sent; a lowering with HOLD_HOIST_LOWER in force: sent in
OBSERVE, dropped in GOVERN, alone and ahead of a rotary frame, which then is begun; a present command under
HOLD_HANDLER in OBSERVE. -/
theorem witness_rigCommandsReachTheLine :
    let lowering := frame 2 22 [0xFFFF]
    let forced := fun (s : State) =>
      let u := active 1 (pagesOf 4 [(2, [0, 0, 0, 0, 0, 0, 0, 0, 0x1C00])]) s
      { u with event := { u.event with classes := u.event.classes.set 0 .active } }
    let s := forced (governing lowering)
    let free := governing (frame 2 25 [1])
    let o := { s with line := { s.line with mode := .observe, bypassOut := false } }
    let taken := { s with line := { s.line with downstream := [] } }
    let two := { s with line := { s.line with downstream := [lowering, frame 2 99 [1]] } }
    (∃ t, exec .fieldTransmitBegin two = .next t ∧ t.line.downstream = [] ∧ t.line.fieldOut = some (frame 2 99 [1])) ∧
      govern (frame 2 22 [5]) taken = (some (frame 2 22 [5]), { taken with gov := taken.gov }) ∧
      govern (frame 2 25 [1]) free =
        (some (frame 2 25 [1]), { free with gov := { free.gov with holder := .handler, moving := false } }) ∧
      s.line.fieldLink.up = true ∧ s.line.mode ≠ .bypass ∧ o.line.mode = .observe ∧ s.line.injections = [] ∧
      s.line.downstream = [lowering] ∧ roleOf s lowering = some .hoist ∧ roleOf o lowering = some .hoist ∧
      (govern lowering taken).1 = none ∧ (govern lowering taken).2.line.injections = [] ∧ Settled s ∧ Settled o ∧
      Settled two ∧ actionInForce o .holdHandler = true ∧ o.gov.holder = .none :=
  ⟨⟨_, rfl, by decide +kernel⟩, by decide +kernel⟩

/-- TOP_DRIVE holds and a present command waits. -/
theorem witness_noPresentWhileTopDriveHolds :
    let s := { governing (frame 2 25 [1]) with gov := { GovState.reset with holder := .topDrive } }
    (∃ t, exec .fieldTransmitBegin s = .next t) ∧ s.line.mode = .govern ∧ s.gov.holder = .topDrive ∧
      s.line.injections = [] ∧ roleOf s (frame 2 25 [1]) = some .handler :=
  ⟨⟨_, rfl⟩, by decide +kernel⟩

/-- Alone: a ROD record and 63 frames in the queue, a TICKET of two frames and 62, a record of the hold and 61 with
the flush watched, a DUE entry before a WAITING one, an EVENT and 63, a STATUS and 61; with one place two sources
pending; a full queue with a ROD record; a TICKET of two frames and one place. -/
theorem witness_recordsEnterInOrder :
    let r : RecordBody := { type := 1, frames := [[]] }
    let k : RecordBody := { type := 3, frames := [[], []] }
    let e : LagEntry := { strata := buildStrata workedInterval .mark 178000 0, arrival := 1, stage := .waiting }
    let due := { e with stage := .forced 5 }
    let s := filled 0
    let occurred := fun (src : Source) (u : State) => takeOccurrence { src := src, detail := 9, applied := true } u
    let two := occurred 60 (occurred 40 (filled 63))
    (s.rod.out = [] ∧ s.bill.outBuffer = none ∧ s.lag.hold = [] ∧ (∀ x ∈ s.lag.queue.head?, x.stage = .waiting) ∧
      (∀ src : Source, s.event.accounts[src].pending = false) ∧ s.line.statusDue = none) ∧
      [r] = [{ type := 1, frames := [[]] }] ∧ (filled 63).line.records.length < 64 ∧
      (filled 62).line.records.length + k.frames.length ≤ 64 ∧
      { s.lag with hold := [e.strata], flushWatch := true }.hold = [e.strata] ∧
      (filled 61).line.records.length + 3 ≤ 64 ∧ { s.lag with queue := [due, e] }.queue = due :: [e] ∧
      due.stage ≠ .waiting ∧ (∀ x ∈ [e].head?, x.stage = .waiting) ∧
      (occurred 60 s).event.accounts[(60 : Source)].pending = true ∧
      (∀ other : Source, other ≠ 60 → (occurred 60 s).event.accounts[other].pending = false) ∧
      two.event.accounts[(40 : Source)].pending = true ∧ (40 : Source) < 60 ∧
      two.event.accounts[(60 : Source)].pending = true ∧
      (∀ lower : Source, lower < 40 → two.event.accounts[lower].pending = false) ∧ two.line.records.length = 63 ∧
      64 - (filled 64).line.records.length < r.frames.length ∧ 64 - (filled 63).line.records.length < k.frames.length ∧
      Settled (filled 64) := by decide +kernel

/-- An empty slot with a completion response, and a slot that is full. -/
theorem witness_completionResponseIsPlaced :
    let f := request 11 []
    let l := { State.reset.line with completion := some f }
    l.response = none ∧ l.completion = some f ∧ { l with response := some f }.response ≠ none := by decide +kernel

/-- The period of 10 s reached and not reached; no SETTINGS; a STATUS request with 61 frames in the record queue and
with 62. -/
theorem witness_statusBecomesDue :
    let s := active 8 settingsPages State.reset
    Asks (asking 19 [] (filled 61)) 19 (request 19 []) [] ∧ settings s = some (readSettings settingsPages) ∧
      (readSettings settingsPages).statusPeriod * 1000 ≤ 10000 - s.line.statusTimerStart ∧
      9999 - s.line.statusTimerStart < (readSettings settingsPages).statusPeriod * 1000 ∧
      settings State.reset = none ∧ Settled s ∧ Settled State.reset ∧ Settled (filled 61) ∧ waiting (filled 61) = [] ∧
      (filled 61).line.records.length + 3 ≤ 64 ∧ Settled (filled 62) ∧ waiting (filled 62) = [] ∧
      61 < (filled 62).line.records.length ∧ (filled 62).line.records.length < 64 ∧
      routeOf (filled 62) srcQueueFull = none ∧ (request 19 []).values = [] :=
  ⟨⟨rfl, rfl, rfl, rfl⟩, by decide +kernel⟩

/-- A LIVE channel one ms past its stale time. -/
theorem witness_channelGoesStale :
    let s := { withChannel 5 .live (some 3) (active 0 channelPages State.reset) with now := 101 }
    (5 : Ch) ≠ 11 ∧ binding s 5 ≠ none ∧ s.channels[(5 : Ch)].state = .live ∧
      staleTime s 5 < s.now - s.channels[(5 : Ch)].takenAt ∧ Settled s := by decide +kernel

/-- A STALE channel at 4 × its stale time. -/
theorem witness_channelIsLost :
    let s := { withChannel 5 .stale (some 3) (active 0 channelPages State.reset) with now := 400 }
    (5 : Ch) ≠ 11 ∧ binding s 5 ≠ none ∧ s.channels[(5 : Ch)].state = .stale ∧
      4 * staleTime s 5 ≤ s.now - s.channels[(5 : Ch)].takenAt ∧ Settled s := by decide +kernel

/-- An ABSENT settled channel at 4 × its stale time. -/
theorem witness_settledChannelExpires :
    let s := { withChannel 5 .absentSettled none (active 0 channelPages State.reset) with now := 400 }
    (5 : Ch) ≠ 11 ∧ binding s 5 ≠ none ∧ s.channels[(5 : Ch)].state = .absentSettled ∧
      4 * staleTime s 5 ≤ s.now - s.channels[(5 : Ch)].takenAt := by decide +kernel

/-- A falling line whose reading falls on a half. -/
theorem witness_calibrationRoundsToNearest :
    let q := calibrated 16001 1000 61000 30000 0 - 30000
    1000 < 61000 ∧ 1000 ≤ 16001 ∧ 16001 ≤ 61000 ∧
      2 * (((16001 : Int) - 1000) * (0 - 30000) - q * (61000 - 1000)).natAbs = 61000 - 1000 := by decide

/-- An ABOVE limit of threshold 500 in each of its three states, at a value on the threshold and one above it; a BELOW
limit and one that is off. -/
theorem witness_limitFollowsValue :
    let s := active 0 channelPages State.reset
    let below := active 0 (pagesOf 17 [(2, [0x0100, 0x0202, 100, 0, 60000, 0, 0, 0, 40000, 500])]) State.reset
    let st := fun x => { s.channels[(2 : Ch)] with limit1 := x }
    limitSource 2 .l1 = some 16 ∧ limitControlIn (activePages s tChannel) 2 .l1 = .above ∧
      limitThresholdIn (activePages s tChannel) 2 .l1 = 500 ∧ s.channels[(2 : Ch)].limit .l1 = .armed ∧
      (st .tripped).limit .l1 = .tripped ∧ (st .rearming).limit .l1 = .rearming ∧
      (evalLimit 2 500 .l1 s).channels[(2 : Ch)].limit .l1 = .armed ∧
      (evalLimit 2 501 .l1 s).channels[(2 : Ch)].limit .l1 = .tripped ∧
      limitControlIn (activePages below tChannel) 2 .l1 = .below ∧
      limitControlIn (activePages s tChannel) 2 .l2 = .off := by decide +kernel

/-- 45 strokes of pump 1 with SETTINGS active and one entry waiting at exactly the volume they bring. -/
theorem witness_pumpedVolumeBringsArrivals :
    let s := active 8 settingsPages State.reset
    let r := buildStrata workedInterval .mark 178000 0
    let e : LagEntry := { strata := r, arrival := 513000000, stage := .waiting }
    let u := { s with lag := { s.lag with queue := [e, { e with arrival := 513000001 }] } }
    settings u = some (readSettings settingsPages) ∧ (0 < 45) ∧ (∀ x ∈ u.lag.queue, x.stage = .waiting) ∧
      u.lag.queue.Pairwise (fun a b => a.arrival ≤ b.arrival) ∧ (strokeSample .one 45 30000 u).circ.pumped = 513000000 ∧
      (strokeSample .one 45 30000 u).lag.queue.map (fun x => decide (x.stage = .waiting)) = [false, true] := by decide +kernel

/-- The figures of chapter 3: a held block, a VALID string, a hook of 2,300 daN. -/
theorem witness_depthAndWeightsFollow :
    let s := withChannel 7 .live (some 9000) (withChannel 6 .live (some 2300)
      (withChannel 12 .live (some 1150) (active 8 settingsPages State.reset)))
    let u := { s with rod := { s.rod with valid := true, length := 180000, weight := 36000000 } }
    settings u = some (readSettings settingsPages) ∧ u.depth.topMode = .following ∧ held u 7 = some 9000 ∧
      u.rod.valid = true ∧ s.rod.valid = false ∧ held u 6 = some 2300 ∧
      (recomputeWeight u).depth.wobN = some 15726 := by decide +kernel

/-- 1,000 ms on the second timer with a running clock below its end, a ticket open and none open. -/
theorem witness_secondStepCounts :
    let s := { drillingJob 0 with now := 1000 }
    1000 ≤ s.now - s.depth.secondStart ∧ s.depth.clockRuns = true ∧ s.depth.jobClock < 4294967295 ∧
      s.bill.ticketOpen = true ∧ (inJob .ending s).bill.ticketOpen = false ∧ State.reset.depth.clockRuns = false ∧
      Settled s ∧ Settled (inJob .ending s) := by decide +kernel

/-- The dwell time of 5 s reached. -/
theorem witness_dwellExpiryTakesCandidate :
    let s := active 8 settingsPages State.reset
    let u := { s with now := 5000, depth := { s.depth with dwellStart := some 0, candidate := .idle } }
    u.depth.dwellStart = some 0 ∧ settings u = some (readSettings settingsPages) ∧
      (readSettings settingsPages).dwellTime * 1000 ≤ u.now - 0 ∧ Settled u := by decide +kernel

/-- A MODE request of 0 in GOVERN. -/
theorem witness_modeBypassIsEntered :
    let s := inMode .govern State.reset
    Asks (asking 1 [0] s) 1 (request 1 [0]) [] ∧ (request 1 [0]).values = [0] ∧ (asking 1 [0] s).line.mode ≠ .bypass ∧
      Settled (asking 1 [0] s) :=
  ⟨⟨rfl, rfl, rfl, rfl⟩, rfl, by decide, by decide +kernel⟩

/-- MODE requests of 3, 2, 1 and 0 in every case of the statement. -/
theorem witness_modeRequestIsAnswered :
    let s := active 8 settingsPages (active 0 channelPages State.reset)
    let all := active 2 [] (active 4 [] (active 3 [] (active 1 [] s)))
    let ready := { all with rod := { all.rod with valid := true } }
    let needs := fun u : State => [isActive u tChannel, isActive u tSettings, isActive u tRoute, isActive u tMudprog,
      isActive u tRodclass, isActive u tProfile, u.rod.valid]
    Asks (asking 1 [3] s) 1 (request 1 [3]) [] ∧ Asks (asking 1 [2] ready) 1 (request 1 [2]) [] ∧
      Asks (asking 1 [1] s) 1 (request 1 [1]) [] ∧ 2 < (3 : Word).toNat ∧ s.line.mode = .bypass ∧
      (inJob .ending s).bill.job = .ending ∧ s.bill.job ≠ .ending ∧ (inMode .observe s).line.mode = .observe ∧
      (inMode .govern s).line.mode = .govern ∧ isActive State.reset tChannel = false ∧
      isActive (active 0 channelPages State.reset) tSettings = false ∧ isActive s tChannel = true ∧
      isActive s tSettings = true ∧ (needs s).idxOf? false = some 2 ∧ (needs all).idxOf? false = some 6 ∧
      (∀ b ∈ needs ready, b = true) ∧ Settled (asking 1 [1] s) ∧ Settled (asking 1 [2] ready) :=
  ⟨⟨rfl, rfl, rfl, rfl⟩, ⟨rfl, rfl, rfl, rfl⟩, ⟨rfl, rfl, rfl, rfl⟩, by decide +kernel⟩

/-- A LOAD of SETTINGS page 1, of page 2, of table 9, of TARIFF while deferred, and while ENDING. -/
theorem witness_loadWritesPendingPage :
    let d := { State.reset with bill := { BillState.reset with deferred := true, job := .opened } }
    Asks (asking 2 [8, 1, 5] d) 2 (request 2 [8, 1, 5]) [] ∧ 2 ≤ (request 2 [8, 1, 5]).values.length ∧
      (request 2 [8, 1, 5]).values.length ≤ 14 ∧ (inJob .ending d).bill.job = .ending ∧ d.bill.job ≠ .ending ∧
      8 < value (request 2 [9, 0]) 0 ∧ value (request 2 [8, 1]) 0 = (8 : TableNo).val ∧
      d.tables[(8 : TableNo)].pending.length ≤ value (request 2 [8, 2]) 1 ∧
      value (request 2 [8, 1]) 1 < d.tables[(8 : TableNo)].pending.length ∧
      value (request 2 [7, 4]) 1 < d.tables[(7 : TableNo)].pending.length ∧ d.bill.deferred = true ∧
      value (request 2 [7, 4]) 0 = (7 : TableNo).val :=
  ⟨⟨rfl, rfl, rfl, rfl⟩, by decide +kernel⟩

/-- ACTIVATE of table 9, of TARIFF deferred and with a job OPEN, of a table not loaded, of a SETTINGS copy that fails
and of one that passes, of a CLASSIFY copy. -/
theorem witness_activateTakesEffect :
    let d := { State.reset with bill := { BillState.reset with deferred := true, job := .opened } }
    let put := fun (t : TableNo) (pages : List Page) => { State.reset with
      tables := State.reset.tables.set t { active := none, pending := pages, mask := pages.map fun _ => true } }
    let tariff := pagesOf 5 [(1, [0, 0, 0, 0, 0, 1, 0, 2, 0, 3])]
    Asks (asking 3 [8] d) 3 (request 3 [8]) [] ∧ 8 < (9 : Word).toNat ∧ d.bill.job ≠ .ending ∧
      d.bill.deferred = true ∧ (7 : Word).toNat = (7 : TableNo).val ∧
      d.tables[(8 : TableNo)].active = none ∧ 0 < d.tables[(8 : TableNo)].pending.length ∧
      d.tables[(8 : TableNo)].mask.getD 0 false = false ∧
      (∀ p < (put 8 settingsPages).tables[(8 : TableNo)].pending.length,
        (put 8 settingsPages).tables[(8 : TableNo)].mask.getD p false = true) ∧
      checkTable 8 (pagesOf 2 []) = some (.badValue, 0) ∧ checkTable 8 settingsPages = none ∧
      checkTable 5 (pagesOf 1 []) = none ∧ checkTable 7 tariff = none :=
  ⟨⟨rfl, rfl, rfl, rfl⟩, by decide +kernel⟩

/-- Reads of table 9, of a page too many, of copy 2, of PENDING, of ACTIVE valid and invalid. -/
theorem witness_readTableGivesPage :
    let s := active 8 settingsPages State.reset
    Asks (asking 4 [8, 1, 0] s) 4 (request 4 [8, 1, 0]) [] ∧ (request 4 [8, 1, 0]).values.length = 3 ∧
      (inJob .ending s).bill.job = .ending ∧ s.bill.job ≠ .ending ∧ 8 < value (request 4 [9, 0, 0]) 0 ∧
      value (request 4 [8, 1, 0]) 0 = (8 : TableNo).val ∧ 2 ≤ value (request 4 [8, 2, 0]) 1 ∧
      value (request 4 [8, 1, 0]) 1 < s.tables[(8 : TableNo)].pending.length ∧ 1 < value (request 4 [8, 1, 2]) 2 ∧
      value (request 4 [8, 1, 1]) 2 = 1 ∧ (s.tables[(8 : TableNo)].pending[1]?).isSome = true ∧
      s.tables[(8 : TableNo)].active = some settingsPages ∧ (settingsPages[1]?).isSome = true ∧
      State.reset.tables[(8 : TableNo)].active = none :=
  ⟨⟨rfl, rfl, rfl, rfl⟩, by decide +kernel⟩

/-- RACK_ADDs with each offending value, of a tag known, into a full table and into one with a place. -/
theorem witness_rackAddCreatesRod :
    let f := request 5 [7, 15, 300, 0, 0, 1]
    let many := fun n => (List.range n).map fun i => { rod7 .rack with tag := i + 100 }
    Asks (asking 5 [7, 15, 300, 0, 0, 1] State.reset) 5 f [] ∧ f.values.length = 6 ∧
      State.reset.bill.job ≠ .ending ∧ value (request 5 [0]) 0 = 0 ∧ value f 0 ≠ 0 ∧ 15 < value (request 5 [7, 16]) 1 ∧
      value f 1 ≤ 15 ∧ value (request 5 [7, 1, 299]) 2 < 300 ∧ 12000 < value (request 5 [7, 1, 12001]) 2 ∧
      300 ≤ value f 2 ∧ value f 2 ≤ 12000 ∧ 1 < value (request 5 [7, 1, 300, 0, 0, 2]) 5 ∧ value f 5 ≤ 1 ∧
      oneRod.rod.table.find? (fun r => r.tag == value f 0) = some (rod7 .string) ∧
      (∀ r ∈ many 256, r.tag ≠ value f 0) ∧ 256 ≤ (many 256).length ∧ (many 255).length < 256 :=
  ⟨⟨rfl, rfl, rfl, rfl⟩, by decide +kernel⟩

/-- A tag unknown, a rod in STRING and a rod in RACK. -/
theorem witness_rackRemoveDeletesRod :
    Asks (asking 6 [7] oneRod) 6 (request 6 [7]) [] ∧ (request 6 [7]).values = [7] ∧ oneRod.bill.job ≠ .ending ∧
      (∀ r ∈ State.reset.rod.table, r.tag ≠ (7 : Word).toNat) ∧
      oneRod.rod.table.find? (fun r => r.tag == (7 : Word).toNat) = some (rod7 .string) ∧ (rod7 .string).place = .string ∧
      [rod7 .rack].find? (fun r => r.tag == (7 : Word).toNat) = some (rod7 .rack) ∧ (rod7 .rack).place ≠ .string :=
  ⟨⟨rfl, rfl, rfl, rfl⟩, by decide +kernel⟩

/-- A tag unknown and a rod in STRING. -/
theorem witness_rodReadGivesRecord :
    Asks (asking 7 [7] oneRod) 7 (request 7 [7]) [] ∧ (request 7 [7]).values = [7] ∧ oneRod.bill.job ≠ .ending ∧
      (∀ r ∈ State.reset.rod.table, r.tag ≠ (7 : Word).toNat) ∧
      oneRod.rod.table.find? (fun r => r.tag == (7 : Word).toNat) = some (rod7 .string) :=
  ⟨⟨rfl, rfl, rfl, rfl⟩, by decide +kernel⟩

/-- Page 22, a COUNT that does not fit, a header with 251 tags and one with 250, pages 1 and 21. -/
theorem witness_stringLoadWritesBuffer :
    let h := request 8 [0, 250, 1, 0, 5]
    let p := request 8 (21 :: List.replicate 12 7)
    Asks (asking 8 [0, 250, 1, 0, 5] State.reset) 8 h [] ∧ h.values.length = 5 ∧ p.values.length = 13 ∧
      State.reset.bill.job ≠ .ending ∧ 21 < value (request 8 [22, 0, 0, 0, 0]) 0 ∧
      (request 8 [1, 0, 0, 0, 0]).values.length ≠ 13 ∧ value h 0 = 0 ∧ 250 < value (request 8 [0, 251, 0, 0, 0]) 1 ∧
      1 < value (request 8 [0, 250, 2, 0, 0]) 2 ∧ value h 1 ≤ 250 ∧ value h 2 ≤ 1 ∧ 1 ≤ value p 0 ∧ value p 0 ≤ 21 :=
  ⟨⟨rfl, rfl, rfl, rfl⟩, by decide +kernel⟩

/-- GOVERN; no RODCLASS; no header; a header of 13 without page 2; a load of the one rod in RACK that is of kind BIT.
-/
theorem witness_stringCommitReplacesString :
    let s := active 4 (pagesOf 16 []) State.reset
    let u := { s with rod := { s.rod with
      table := [rod7 .rack], loadHeader := some { count := 1, top := none }
      loadPages := s.rod.loadPages.set 0 (some [7]) } }
    Asks (asking 9 [] u) 9 (request 9 []) [] ∧ (request 9 []).values = [] ∧ u.bill.job ≠ .ending ∧
      (inMode .govern u).line.mode = .govern ∧ u.line.mode ≠ .govern ∧ isActive State.reset tRodclass = false ∧
      isActive u tRodclass = true ∧ s.rod.loadHeader = none ∧ 12 * (1 : Fin 21).val < 13 ∧
      u.rod.loadPages[(1 : Fin 21)] = none ∧ (∀ q : Fin 21, q < 1 → u.rod.loadPages[q] ≠ none) ∧
      (∀ p : Fin 21, 12 * p.val < 1 → u.rod.loadPages[p] ≠ none) ∧ (loadTags u 1).Nodup ∧ loadSlot u 0 ≠ 0 ∧
      findRod u (loadSlot u 0) = some (rod7 .rack) ∧ returnPlace u (rod7 .rack) = .rack ∧
      Settled (asking 9 [] u) ∧ Settled (inMode .govern u) :=
  ⟨⟨rfl, rfl, rfl, rfl⟩, by decide +kernel⟩

/-- A string of one rod with nothing in the out-queue: a place free and none; 15 and 16 records there. -/
theorem witness_breakoutPopsTopRod :
    let r : RecordBody := { type := 1, frames := [[]] }
    oneRod.rod.string = [] ++ [7] ∧ findRod oneRod 7 = some (rod7 .string) ∧ oneRod.rod.out = [] ∧
      (filled 63).line.records.length < 64 ∧ 64 ≤ (tripOut 1).line.records.length ∧
      (List.replicate 15 r).length < 16 ∧ (∀ x ∈ (List.replicate 15 r).head?, x.frames ≠ []) ∧
      Producer.rod ∉ (tripOut 1).line.judged ∧ 16 ≤ (List.replicate 16 r).length ∧
      (let s := { tripOut 1 with rod := { (tripOut 1).rod with out := List.replicate 16 r } }
       Producer.event ∈ [Producer.rod, .event, .status] ∧ (beginJudging s).line.judged = [.rod]) := by decide +kernel

/-- A candidate on a string of 249 rods, and no candidate. -/
theorem witness_makeupPushesCandidate :
    let s := { State.reset with rod := { RodState.reset with
      table := [rod7 .rack], candidate := some 7, string := List.replicate 249 1 } }
    s.rod.candidate = some 7 ∧ findRod s 7 = some (rod7 .rack) ∧ s.rod.string.length < 250 ∧
      oneRod.rod.candidate = none := by decide +kernel

/-- A job OPEN; each offending value; no TARIFF; an accepted start at 2,000,000 mm. -/
theorem witness_jobStartOpensJob :
    let f := request 10 [214, 30, 33920, 6, 0, 101]
    let s := active 7 [] State.reset
    Asks (asking 10 [214, 30, 33920, 6, 0, 101] s) 10 f [] ∧ f.values.length = 6 ∧ s.bill.job ≠ .ending ∧
      (inJob .opened s).bill.job = .opened ∧ s.bill.job = .noJob ∧ value (request 10 [0]) 0 = 0 ∧ value f 0 ≠ 0 ∧
      2000000 < value (request 10 [1, 30, 33921]) 1 * 65536 + value (request 10 [1, 30, 33921]) 2 ∧
      value f 1 * 65536 + value f 2 ≤ 2000000 ∧ value (request 10 [1, 0, 0, 0]) 3 = 0 ∧ value f 3 ≠ 0 ∧
      value (request 10 [1, 0, 0, 1, 0, 0]) 4 * 65536 + value (request 10 [1, 0, 0, 1, 0, 0]) 5 = 0 ∧
      value f 4 * 65536 + value f 5 ≠ 0 ∧ isActive State.reset tTariff = false ∧ isActive s tTariff = true ∧
      Settled (asking 10 [214, 30, 33920, 6, 0, 101] s) :=
  ⟨⟨rfl, rfl, rfl, rfl⟩, by decide +kernel⟩

/-- No job; a force flag of 2; a ticket in the out-buffer; a rod in the string; an accepted end with force 0 and with
force 1. -/
theorem witness_jobEndBeginsEnding :
    let s := drillingJob 500
    Asks (asking 11 [0] s) 11 (request 11 [0]) [] ∧ (request 11 [0]).values = [0] ∧ State.reset.bill.job = .noJob ∧
      s.bill.job = .opened ∧ 1 < (2 : Word).toNat ∧ (1 : Word).toNat ≤ 1 ∧
      (waitingTicket s).bill.outBuffer ≠ none ∧ s.bill.outBuffer = none ∧
      oneRod.rod.string ≠ [] ∧ s.rod.string = [] ∧ Settled (asking 11 [0] s) ∧ Settled (asking 11 [0] (waitingTicket s)) :=
  ⟨⟨rfl, rfl, rfl, rfl⟩, by decide +kernel⟩

/-- Both things have come; the lag unit has not finished; no job. -/
theorem witness_jobEndCompletes :
    let e : EndingWatch := { ticket := 6, finalHole := 178320, lagDone := true }
    let s := inJob .ending State.reset
    let u := { s with bill := { s.bill with ending := some e } }
    u.bill.job = .ending ∧ u.bill.outBuffer = none ∧ u.bill.ending = some e ∧ e.lagDone = true ∧
      State.reset.bill.job ≠ .ending ∧ State.reset.bill.ending = none ∧ { e with lagDone := false }.lagDone = false ∧
      Settled u := by decide +kernel

/-- No job; a ticket in the out-buffer; a shift close with an interval of length. -/
theorem witness_shiftCloseOpensNextTicket :
    let s := drillingJob 500
    Asks (asking 12 [] s) 12 (request 12 []) [] ∧ (request 12 []).values = [] ∧ State.reset.bill.job = .noJob ∧
      s.bill.job = .opened ∧ s.bill.outBuffer = none ∧
      (waitingTicket s).bill.outBuffer ≠ none ∧ Settled (asking 12 [] s) ∧ Settled (asking 12 [] (waitingTicket s)) :=
  ⟨⟨rfl, rfl, rfl, rfl⟩, by decide +kernel⟩

/-- No job; a note of 256; an interval without length and one of 500 mm, classed and with each cause; no PROFILE and
one; three records in the hold and four; 63 entries in the lag queue and 64. -/
theorem witness_markClosesInterval :
    let s := drillingJob 500
    let r := buildStrata workedInterval .mark 178000 0
    let e : LagEntry := { strata := r, arrival := 1, stage := .waiting }
    let o := { workedInterval with top := 0, boundary := none }
    Asks (asking 13 [255] s) 13 (request 13 [255]) [] ∧ (request 13 [255]).values = [255] ∧
      State.reset.bill.job = .noJob ∧ s.bill.job = .opened ∧ 255 < (256 : Word).toNat ∧ (255 : Word).toNat ≤ 255 ∧
      s.interval.current = some o ∧ (drillingJob 0).depth.hole ≤ 0 ∧ 0 < s.depth.hole ∧
      s.tables[tProfile].active = none ∧ (active tProfile [] s).tables[tProfile].active = some [] ∧
      [r, r, r].length < 4 ∧ 4 ≤ [r, r, r, r].length ∧ (List.replicate 63 e).length < 64 ∧
      64 ≤ (List.replicate 64 e).length ∧ o.area = some 49087 ∧ o.bounds = some [40, 80, 150, 250, 350, 500, 800] ∧
      (∀ b ∈ unclassedCauses o 500, b = false) ∧ specificEnergy workedInterval 49087 500 = 385 ∧
      (unclassedCauses { o with minLength := none } 500).idxOf? true = some 0 ∧
      (unclassedCauses { o with area := none } 500).idxOf? true = some 1 ∧
      (unclassedCauses { o with bounds := none } 500).idxOf? true = some 2 ∧
      (unclassedCauses o 199).idxOf? true = some 3 ∧
      (unclassedCauses { o with sumT := 999 } 500).idxOf? true = some 4 ∧ Settled (asking 13 [255] s) ∧
      Settled { filled 62 with lag := { s.lag with hold := [r, r, r, r], queue := List.replicate 64 e } } ∧
      ((asking 13 [255] s).rod.out = [] ∧ (asking 13 [255] s).bill.outBuffer = none ∧
        (asking 13 [255] s).lag.hold = [] ∧ (asking 13 [255] s).lag.queue = [] ∧
        (asking 13 [255] s).line.records.length + 3 ≤ 64) ∧ ¬((filled 62).line.records.length + 3 ≤ 64) :=
  ⟨⟨rfl, rfl, rfl, rfl⟩, by decide +kernel⟩

/-- BYPASS; PIT_VOLUME absent; PIT_VOLUME LIVE in OBSERVE. -/
theorem witness_baselineIsTaken :
    let s := withChannel 4 .live (some 20000) (inMode .observe State.reset)
    Asks (asking 14 [] s) 14 (request 14 []) [] ∧ (request 14 []).values = [] ∧ s.bill.job ≠ .ending ∧
      State.reset.line.mode = .bypass ∧ held State.reset 4 = none ∧ s.line.mode ≠ .bypass ∧ held s 4 = some 20000 ∧
      Settled (asking 14 [] s) :=
  ⟨⟨rfl, rfl, rfl, rfl⟩, by decide +kernel⟩

/-- 1,000,001 L; the balance SUSPENDED; 0 L; 1,000,000 L on a balance that WATCHES. -/
theorem witness_additionMovesBalance :
    let s := withChannel 4 .live (some 20000) (inMode .observe State.reset)
    let u := { s with circ := { s.circ with watching := true, reference := 20000000000 } }
    let x : Int := ((15 : Word) ++ (16960 : Word) : BitVec 32).toInt
    Asks (asking 15 [15, 16960] u) 15 (request 15 [15, 16960]) [] ∧ (request 15 [15, 16960]).values = [15, 16960] ∧
      u.bill.job ≠ .ending ∧ 1000000 < ((15 : Word) ++ (16961 : Word) : BitVec 32).toInt ∧
      ((0xFFF0 : Word) ++ (0xBDBF : Word) : BitVec 32).toInt < -1000000 ∧ x = 1000000 ∧
      ((0 : Word) ++ (0 : Word) : BitVec 32).toInt = 0 ∧ u.line.mode ≠ .bypass ∧ u.circ.watching = true ∧
      s.circ.watching = false ∧ held u 4 = some 20000 ∧ u.circ.adjustment + x * 1000000 ≤ 9223372036854775807 ∧
      (-9223372036854775808 : Int) ≤ (20000 : Int) * 1000000 - (u.circ.reference + (u.circ.adjustment + x * 1000000)) ∧
      Settled (asking 15 [15, 16960] u) :=
  ⟨⟨rfl, rfl, rfl, rfl⟩, by decide +kernel⟩

/-- A value of 3; REPAIR in OBSERVE; STANDBY in BYPASS. -/
theorem witness_downtimeIsDeclared :
    let s := inMode .observe State.reset
    Asks (asking 16 [2] s) 16 (request 16 [2]) [] ∧ (request 16 [2]).values = [2] ∧ s.bill.job ≠ .ending ∧
      2 < (3 : Word).toNat ∧ (2 : Word).toNat ≤ 2 ∧ (1 : Word).toNat ≤ 2 ∧ s.line.mode ≠ .bypass ∧
      State.reset.line.mode = .bypass ∧ Settled (asking 16 [2] s) :=
  ⟨⟨rfl, rfl, rfl, rfl⟩, by decide +kernel⟩

/-- Class 8; class 7 INACTIVE; ACTIVE with its condition true, latched and not, and with it false; ACKNOWLEDGE_WAIT;
STATUS not due, and due with no room for its record; an occurrence and reports of a source routed to class 7, alone
and beside another, and of one routed to NONE. -/
theorem witness_ackClassAcknowledges :
    let s := classed 1 .active
    let k : AlarmClass := 7
    let full := { s with line := { s.line with
      statusDue := some .period, records := List.replicate 62 (frame 6 1 []) } }
    Asks (asking 17 [7] s) 17 (request 17 [7]) [] ∧ (request 17 [7]).values = [7] ∧ s.bill.job ≠ .ending ∧
      7 < (8 : Word).toNat ∧ (7 : Word).toNat = k.val ∧ (classed 0 .inactive).event.classes[k] = .inactive ∧
      s.event.classes[k] = .active ∧ routedTrue s k = true ∧ latched s k = true ∧
      latched (classed 0 .active) k = false ∧ routedTrue State.reset k = false ∧
      (classed 1 .ackWait).event.classes[k] = .ackWait ∧ routedTrue (classed 1 .ackWait) k = true ∧
      s.line.statusDue = none ∧ Settled (asking 17 [7] s) ∧ full.line.statusDue = some .period ∧ Settled full ∧
      routeOf s srcQueueFull ≠ some k ∧
      routeOf s srcPumpClamp ≠ some k ∧ routeOf s 0 = some k ∧ routeOf s 1 = some k ∧ routeOf s 40 = none ∧
      Machine.cond s 0 = true ∧
      Machine.cond s 1 = false ∧ Machine.cond s 40 = false ∧ isConditionSource 0 = true :=
  ⟨⟨rfl, rfl, rfl, rfl⟩, by decide +kernel⟩

/-- A FLUSH_LAG with one WAITING entry. -/
theorem witness_flushLagForcesEntries :
    let r := buildStrata workedInterval .mark 178000 0
    let s := { State.reset with lag := { LagState.reset with
      queue := [{ strata := r, arrival := 1, stage := .waiting }] } }
    Asks (asking 18 [] s) 18 (request 18 []) [] ∧ (request 18 []).values = [] ∧ s.bill.job ≠ .ending ∧
      Settled (asking 18 [] s) ∧ s.lag.flushWatch = false :=
  ⟨⟨rfl, rfl, rfl, rfl⟩, by decide +kernel⟩

/-- Two WAITING entries with room for one, and with room for none behind a head that is not WAITING. -/
theorem witness_flushLagIsBoundedByRoom :
    let r := buildStrata workedInterval .mark 178000 0
    let e : LagEntry := { strata := r, arrival := 1, stage := .waiting }
    let room := asking 18 [] { filled 61 with lag := { LagState.reset with queue := [e, e] } }
    let due := asking 18 [] { filled 62 with lag := { LagState.reset with queue := [{ e with stage := .forced 5 }, e, e] } }
    Asks room 18 (request 18 []) [] ∧ Asks due 18 (request 18 []) [] ∧
      (∃ t, exec .flushLag room = .next t ∧ t.lag.queue = [{ e with stage := .forced 0 }] ∧ t.line.records.length = 64) ∧
      (∃ t, exec .flushLag due = .next t ∧ t.lag.queue.length = 3 ∧ t.line.records.length = 62) ∧
      Settled room ∧ Settled due ∧ room.bill.job ≠ .ending ∧ due.bill.job ≠ .ending ∧
      min 2 ((64 - room.line.records.length) / 3) = 1 ∧ (∀ x ∈ room.lag.queue.head?, x.stage = .waiting) ∧
      ¬(∀ x ∈ due.lag.queue.head?, x.stage = .waiting) :=
  ⟨⟨rfl, rfl, rfl, rfl⟩, ⟨rfl, rfl, rfl, rfl⟩, ⟨_, rfl, by decide +kernel⟩, ⟨_, rfl, by decide +kernel⟩, by decide +kernel⟩

/-- A MARK without its value, a MARK while ENDING, kinds 0 and 20, a full response slot, a completion response
waiting, an empty FIFO. -/
theorem witness_decoderAnswersAlike :
    Asks (asking 13 [5] State.reset) (BitVec.ofNat 8 13) (request 13 [5]) [] ∧
      Asks (asking 20 [] State.reset) 20 (request 20 []) [] ∧ (.mark, 13, [1]) ∈ requestTable ∧ (request 13 []).values.length ∉ [1] ∧ (request 13 [5]).values.length ∈ [1] ∧
      (inJob .ending State.reset).bill.job = .ending ∧ Instr.mark ≠ .mode ∧ Instr.mark ≠ .status ∧
      (0 : BitVec 8).toNat = 0 ∧ 19 < (20 : BitVec 8).toNat ∧ (∀ g ∈ State.reset.line.requests.head?, g.tag.toNat ≠ 13) ∧
      { State.reset.line with response := some (request 13 []) }.response ≠ none ∧
      { State.reset.line with completion := some (request 11 []) }.completion ≠ none :=
  ⟨⟨rfl, rfl, rfl, rfl⟩, ⟨rfl, rfl, rfl, rfl⟩, by decide⟩

/-- A job OPEN, a used bit depth within the hole, and a step that answers. -/
theorem witness_holeDepthOnlyGrows :
    let s := { drillingJob 500 with depth := { (drillingJob 500).depth with usedBit := some 500 } }
    s.bill.job ≠ .noJob ∧ (∀ u, s.depth.usedBit = some u → u ≤ s.depth.hole) ∧ Instr.secondStep ≠ .powerOnReset ∧
      ∃ t, exec .secondStep s = .next t :=
  ⟨by decide, fun _ h => by cases h; decide, by decide, _, rfl⟩

/-- A LOAD that answers. -/
theorem witness_activeCopiesChangeOnlyThen :
    ∃ t, exec .load (asking 2 [8, 1, 5] State.reset) = .next t ∧ t.tables[(8 : TableNo)].active = none :=
  ⟨_, rfl, by decide +kernel⟩

/-- The accrual of METRES(5, 1), and one whose quantity just reaches 2^32 − 1. -/
theorem witness_accrualKeepsCarry :
    0 < 1000 ∧ TicketLine.empty.quantity + 500 ≤ 4294967295 ∧
      TicketLine.empty.amount + (TicketLine.empty.carry + 500 * 27335) / 1000 ≤ 4294967295 ∧
      TicketLine.empty.quantity + 4294967295 ≤ 4294967295 ∧ (0 + 4294967295 * 1) / 1000 ≤ 4294967295 := by decide

/-- The laws hold of the state right after reset, from which a step answers: the premises of the statements that every
step keeps them can be met. -/
theorem witness_laws : BypassLaw State.reset ∧ JobLaw State.reset ∧ RodLaw State.reset ∧ SumsLaw State.reset ∧
    ∃ t, step State.reset = .next t := by
  refine ⟨?_, ?_, ?_, ?_, _, rfl⟩
  · constructor <;> decide
  · constructor <;> decide
  · exact { tags := List.nodup_nil, string := List.nodup_nil, inString := by simp [State.reset, RodState.reset],
            candidate := by simp [State.reset, RodState.reset] }
  · constructor <;> rfl

/-- So do the sizes, with no record waiting, and the conditions. -/
theorem witness_sizes_conditions : Settled State.reset ∧ Fits State.reset ∧ ConditionLaw State.reset := by
  refine ⟨by decide +kernel, ?_, ?_⟩
  · constructor <;> decide
  · constructor
    · intro c l src
      cases l <;> revert c src <;> decide +kernel
    · decide
    · decide

end Sys2Proof.Machine.Tests
end

/-! # Rods of the rack: RACK_ADD, RACK_REMOVE and ROD_READ (R67 to R69) -/

namespace Sys2Proof.Machine

/-! ## A request that is taken and answered -/

/-- The state that a request's own rule finds: the request has left the request FIFO. -/
def taken (rest : List Frame) (s : State) : State := s.setLine { s.line with requests := rest }

/-- A response placed after a request was taken is the answered state of the statements. -/
theorem placeResponse_taken (f : Frame) (rest : List Frame) (r : Reply) (t : State) :
    placeResponse (responseFrame f.tag f.values r) (taken rest t) =
      answered f rest r.code.num (r.results.getD (echo f)) t := rfl

theorem Asks.decoderFree {s : State} {tag : BitVec 8} {f : Frame} {rest : List Frame} (h : Asks s tag f rest) :
    decoderFree s = true := by
  obtain ⟨_, noResponse, noCompletion, _⟩ := h
  simp [Machine.decoderFree, noResponse, noCompletion]

/-- A request that is asked, fits and is let through is answered as its own rule decides; the rule is stated over the
state that it finds. -/
theorem takeRequest_answered {kind countFits : Nat → Bool} {whileEnding : Bool}
    {body : Frame → State → State × Option Reply} {s t : State} {tag : BitVec 8} {f : Frame} {rest : List Frame}
    {r : Reply} (asks : Asks s tag f rest) (hk : kind tag.toNat = true) (hc : countFits f.values.length = true)
    (job : s.bill.job ≠ .ending) (hb : body f (taken rest s) = (taken rest t, some r)) :
    takeRequest kind countFits whileEnding body s = answered f rest r.code.num (r.results.getD (echo f)) t := by
  have free := asks.decoderFree
  obtain ⟨head, -, -, rfl⟩ := asks
  rw [takeRequest_carried head free hk hc (.inl job) hb, placeResponse_taken]

/-! ## Requests of one value -/

theorem val_zero_of_values {f : Frame} {w : Word} (h : f.values = [w]) : f.val 0 = w.toNat := by
  simp [Frame.val, h]

theorem echo_of_values {f : Frame} {w : Word} (h : f.values = [w]) : echo f = [w] := by
  simp [echo, h]

/-! ## The rod table -/

theorem findRod_eq_none_iff {s : State} {tag : Nat} : findRod s tag = none ↔ ∀ r ∈ s.rod.table, r.tag ≠ tag := by
  simp [findRod]

@[simp] theorem findRod_taken (rest : List Frame) (s : State) (tag : Nat) :
    findRod (taken rest s) tag = findRod s tag := rfl

/-! ## RACK_ADD (R67) -/

section
variable {f : Frame}

theorem rackAddFault_tag (tag : f.val 0 = 0) : rackAddFault f = some 0 := if_pos tag

theorem rackAddFault_class (tag : f.val 0 ≠ 0) (cls : 15 < f.val 1) : rackAddFault f = some 1 := by
  rw [rackAddFault, if_neg tag, if_pos cls]

theorem rackAddFault_length (tag : f.val 0 ≠ 0) (cls : f.val 1 ≤ 15) (len : f.val 2 < 300 ∨ 12000 < f.val 2) :
    rackAddFault f = some 2 := by
  rw [rackAddFault, if_neg tag, if_neg (by omega), if_pos len]

theorem rackAddFault_inspect (tag : f.val 0 ≠ 0) (cls : f.val 1 ≤ 15) (low : 300 ≤ f.val 2) (high : f.val 2 ≤ 12000)
    (flag : 1 < f.val 5) : rackAddFault f = some 5 := by
  rw [rackAddFault, if_neg tag, if_neg (by omega), if_neg (by omega), if_pos flag]

theorem rackAddFault_none (tag : f.val 0 ≠ 0) (cls : f.val 1 ≤ 15) (low : 300 ≤ f.val 2) (high : f.val 2 ≤ 12000)
    (flag : f.val 5 ≤ 1) : rackAddFault f = none := by
  rw [rackAddFault, if_neg tag, if_neg (by omega), if_neg (by omega), if_neg (by omega)]

theorem rackAddBody_badValue {i : Nat} (fault : rackAddFault f = some i) (s : State) :
    rackAddBody f s = (s, some (Reply.values .badValue [w16 i])) := by
  simp [rackAddBody, fault]

theorem rackAddBody_duplicate {s : State} {r : Rod} (fault : rackAddFault f = none)
    (known : findRod s (f.val 0) = some r) :
    rackAddBody f s = (s, some (Reply.values .duplicate [w16 r.place.num])) := by
  simp [rackAddBody, fault, known]

theorem rackAddBody_full {s : State} (fault : rackAddFault f = none) (new : findRod s (f.val 0) = none)
    (full : 256 ≤ s.rod.table.length) : rackAddBody f s = (s, some (Reply.echo .full)) := by
  simp [rackAddBody, fault, new, full]

theorem rackAddBody_created {s : State} (rest : List Frame) (fault : rackAddFault f = none)
    (new : findRod s (f.val 0) = none) (room : s.rod.table.length < 256) :
    rackAddBody f (taken rest s) =
      (taken rest (s.setRod { s.rod with table := s.rod.table ++ [rackRod f] }), some (Reply.echo .ok)) := by
  simp only [rackAddBody, fault, findRod_taken, new]
  exact if_neg (Nat.not_le.2 room)

/-- A RACK_ADD of six values that is carried out is answered as its rule decides. -/
theorem exec_rackAdd_answered {s t : State} {rest : List Frame} {r : Reply} (asks : Asks s 5 f rest)
    (count : f.values.length = 6) (job : s.bill.job ≠ .ending)
    (body : rackAddBody f (taken rest s) = (taken rest t, some r)) :
    exec .rackAdd s = .next (answered f rest r.code.num (r.results.getD (echo f)) t) :=
  congrArg Host.Outcome.next (takeRequest_answered asks rfl (by simp [count]) job body)

end

/-- Settles O31: the first check of `rackAddFault` that fails decides, then the search for the tag, then the room. -/
theorem rackAddCreatesRod : Obligations.RackAddCreatesRod := by
  intro s f rest asks count job
  have badValue {i : Nat} (fault : rackAddFault f = some i) :
      exec .rackAdd s = .next (answered f rest 7 [w16 i] s) :=
    exec_rackAdd_answered asks count job (rackAddBody_badValue fault _)
  refine ⟨fun tag => badValue (rackAddFault_tag tag), fun tag cls => badValue (rackAddFault_class tag cls),
    fun tag cls len => badValue (rackAddFault_length tag cls len),
    fun tag cls low high flag => badValue (rackAddFault_inspect tag cls low high flag),
    fun tag cls low high flag => ?_⟩
  have fault := rackAddFault_none tag cls low high flag
  refine ⟨fun r known => ?duplicate, fun new => ?_⟩
  case duplicate => exact exec_rackAdd_answered asks count job (rackAddBody_duplicate fault known)
  have unknown : findRod s (f.val 0) = none := findRod_eq_none_iff.2 new
  constructor
  · intro full
    exact exec_rackAdd_answered asks count job (rackAddBody_full fault unknown full)
  · intro room
    exact exec_rackAdd_answered asks count job (rackAddBody_created rest fault unknown room)

/-! ## RACK_REMOVE (R68) -/

section
variable {f : Frame} {s : State}

theorem rackRemoveBody_notFound (unknown : findRod s (f.val 0) = none) :
    rackRemoveBody f s = (s, some (Reply.echo .notFound)) := by
  simp [rackRemoveBody, unknown]

theorem rackRemoveBody_inString {r : Rod} (known : findRod s (f.val 0) = some r) (place : r.place = .string) :
    rackRemoveBody f s = (s, some (Reply.echo .inString)) := by
  simp [rackRemoveBody, known, place]

theorem rackRemoveBody_deleted {r : Rod} (rest : List Frame) (known : findRod s (f.val 0) = some r)
    (place : r.place ≠ .string) :
    rackRemoveBody f (taken rest s) =
      (taken rest (s.setRod { s.rod with
          table := s.rod.table.filter fun x => x.tag != f.val 0
          candidate := if s.rod.candidate = some (f.val 0) then none else s.rod.candidate }),
        some (Reply.echo .ok)) := by
  simp only [rackRemoveBody, findRod_taken, known]
  exact if_neg place

/-- A RACK_REMOVE of one value that is carried out, and that its rule answers with the request's own value. -/
theorem exec_rackRemove_answered {t : State} {rest : List Frame} {c : Code} {w : Word} (asks : Asks s 6 f rest)
    (one : f.values = [w]) (job : s.bill.job ≠ .ending)
    (body : rackRemoveBody f (taken rest s) = (taken rest t, some (Reply.echo c))) :
    exec .rackRemove s = .next (answered f rest c.num [w] t) := by
  rw [← echo_of_values one]
  exact congrArg Host.Outcome.next (takeRequest_answered asks rfl (by simp [one]) job body)

end

/-- Settles O32: the search for the tag decides, then the state of the rod found. -/
theorem rackRemoveDeletesRod : Obligations.RackRemoveDeletesRod := by
  intro s f rest w asks one job
  rw [← val_zero_of_values one]
  refine ⟨fun absent => ?notFound, fun r known => ⟨fun place => ?inString, fun place => ?deleted⟩⟩
  case notFound =>
    exact exec_rackRemove_answered asks one job (rackRemoveBody_notFound (findRod_eq_none_iff.2 absent))
  case inString => exact exec_rackRemove_answered asks one job (rackRemoveBody_inString known place)
  case deleted => exact exec_rackRemove_answered asks one job (rackRemoveBody_deleted rest known place)

/-! ## ROD_READ (R69) -/

/-- A flag as a word of an answer. -/
theorem w16_bit (b : Bool) : w16 (bit b) = if b then 1 else 0 := by cases b <;> rfl

section
variable {f : Frame} {s : State}

theorem rodReadBody_notFound (unknown : findRod s (f.val 0) = none) :
    rodReadBody f s = (s, some (Reply.echo .notFound)) := by
  simp [rodReadBody, unknown]

theorem rodReadBody_found {r : Rod} (known : findRod s (f.val 0) = some r) :
    rodReadBody f s = (s, some (Reply.values .ok (rodReadValues s r))) := by
  simp [rodReadBody, known]

/-- A ROD_READ of one value that is carried out is answered as its rule decides, and changes nothing else. -/
theorem exec_rodRead_answered {rest : List Frame} {r : Reply} {w : Word} (asks : Asks s 7 f rest)
    (one : f.values = [w]) (job : s.bill.job ≠ .ending)
    (body : rodReadBody f (taken rest s) = (taken rest s, some r)) :
    exec .rodRead s = .next (answered f rest r.code.num (r.results.getD [w]) s) := by
  rw [← echo_of_values one]
  exact congrArg Host.Outcome.next (takeRequest_answered asks rfl (by simp [one]) job body)

end

/-- Settles O33: the search for the tag decides; the eleven values are those of `rodReadValues`, with the two flags
written as words. -/
theorem rodReadGivesRecord : Obligations.RodReadGivesRecord := by
  intro s f rest w asks one job
  rw [← val_zero_of_values one]
  refine ⟨fun absent => ?notFound, fun r known => ?found⟩
  case notFound => exact exec_rodRead_answered asks one job (rodReadBody_notFound (findRod_eq_none_iff.2 absent))
  case found =>
    have answer : exec .rodRead s = .next (answered f rest 0 (rodReadValues s r) s) :=
      exec_rodRead_answered asks one job (rodReadBody_found known)
    rw [answer]
    simp only [rodReadValues, w32, w16_bit, beq_iff_eq]
    rfl

end Sys2Proof.Machine

/-! # Tables: LOAD (R194) -/

namespace Sys2Proof.Machine

/-! ## A request while the job is ENDING -/

/-- A request that is asked and fits, of a kind not taken while ENDING, is answered BUSY (R149). -/
theorem takeRequest_busy {kind countFits : Nat → Bool} {body : Frame → State → State × Option Reply} {s : State}
    {tag : BitVec 8} {f : Frame} {rest : List Frame} (asks : Asks s tag f rest) (hk : kind tag.toNat = true)
    (hc : countFits f.values.length = true) (job : s.bill.job = .ending) :
    takeRequest kind countFits false body s = answered f rest 3 (echo f) s := by
  have free := asks.decoderFree
  obtain ⟨head, -, -, rfl⟩ := asks
  simp only [takeRequest, head, free, hk, hc, job, Bool.and_self, Bool.not_true, Bool.false_eq_true, and_self,
    if_true, if_false]
  exact placeResponse_taken f rest (Reply.echo .busy) s

/-! ## Table numbers and pages (R193) -/

theorem tableNo_eq_none {n : Nat} (large : 8 < n) : tableNo n = none := dif_neg (by omega)

@[simp] theorem tableNo_val (t : TableNo) : tableNo t.val = some t := dif_pos t.isLt

/-- Word i of the page that the values from position n on load, zero where there is none (R194). -/
theorem pageOf_drop_getElem (ws : List Word) (n : Nat) (i : Fin 12) :
    (pageOf (ws.drop n))[i] = ws.getD (i + n) 0 :=
  calc
    _ = (ws.drop n).getD i 0 := Vector.getElem_ofFn i.isLt
    _ = ws.getD (i + n) 0 := by simp [List.getD_eq_getElem?_getD, Nat.add_comm]

/-! ## LOAD (R194) -/

section
variable {f : Frame} {s : State} {t : TableNo}

theorem loadBody_badTable (large : 8 < f.val 0) : loadBody f s = (s, some (Reply.echo .badTable)) := by
  simp [loadBody, tableNo_eq_none large]

theorem loadBody_badPage (table : f.val 0 = t.val) (large : s.tables[t].pending.length ≤ f.val 1) :
    loadBody f s = (s, some (Reply.echo .badPage)) := by
  simp only [loadBody, table, tableNo_val]
  exact if_pos large

theorem loadBody_busy (table : f.val 0 = t.val) (page : f.val 1 < s.tables[t].pending.length)
    (tariff : t = tTariff) (deferred : s.bill.deferred = true) :
    loadBody f s = (s, some (Reply.echo .busy)) := by
  simp only [loadBody, table, tableNo_val]
  exact (if_neg (Nat.not_le.2 page)).trans (if_pos ⟨tariff, deferred⟩)

theorem loadBody_loaded (rest : List Frame) (table : f.val 0 = t.val) (page : f.val 1 < s.tables[t].pending.length)
    (free : ¬(t = tTariff ∧ s.bill.deferred = true)) :
    loadBody f (taken rest s) =
      (taken rest (setTable t (s.tables[t].load (f.val 1) (f.values.drop 2)) s), some (Reply.echo .ok)) := by
  simp only [loadBody, table, tableNo_val]
  exact (if_neg (Nat.not_le.2 page)).trans (if_neg free)

/-- A LOAD of 2 to 14 values that is carried out, and that its rule answers with the request's own values. -/
theorem exec_load_answered {u : State} {rest : List Frame} {c : Code} (asks : Asks s 2 f rest)
    (low : 2 ≤ f.values.length) (high : f.values.length ≤ 14) (job : s.bill.job ≠ .ending)
    (body : loadBody f (taken rest s) = (taken rest u, some (Reply.echo c))) :
    exec .load s = .next (answered f rest c.num (echo f) u) :=
  congrArg Host.Outcome.next (takeRequest_answered asks rfl (by simp [low, high]) job body)

end

/-- Settles O28: the checks of `loadBody` decide in their order; a LOAD that passes them writes `pageOf` of the words
after the table and page numbers. -/
theorem loadWritesPendingPage : Obligations.LoadWritesPendingPage := by
  intro s f rest asks low high
  refine ⟨fun job => ?ending, fun job => ⟨fun large => ?badTable, fun t table =>
    ⟨fun large => ?badPage, fun page tariff deferred => ?busy, fun page free => ?loaded⟩⟩⟩
  case ending => exact congrArg Host.Outcome.next (takeRequest_busy asks rfl (by simp [low, high]) job)
  case badTable => exact exec_load_answered asks low high job (loadBody_badTable large)
  case badPage => exact exec_load_answered asks low high job (loadBody_badPage table large)
  case busy => exact exec_load_answered asks low high job (loadBody_busy table page tariff deferred)
  case loaded =>
    exact ⟨pageOf (f.values.drop 2), pageOf_drop_getElem f.values 2,
      exec_load_answered asks low high job (loadBody_loaded rest table page free)⟩

end Sys2Proof.Machine

/-! # What the operations of the part keep -/

namespace Sys2Proof.Machine

/-! ## Pending sources and the STATUS due flag -/

/-- A source that is pending stays pending. -/
def KeepsPending (s t : State) : Prop :=
  ∀ src : Source, s.event.accounts[src].pending = true → t.event.accounts[src].pending = true

theorem KeepsPending.trans {s t u : State} (h : KeepsPending s t) (k : KeepsPending t u) : KeepsPending s u :=
  fun src p => k src (h src p)

theorem setAccount_keepsPending (src : Source) (a : Account) (s : State)
    (h : s.event.accounts[src].pending = true → a.pending = true) : KeepsPending s (setAccount src a s) := by
  intro q hq
  rw [setAccount_account]
  split
  · next e => exact h (e ▸ hq)
  · exact hq

theorem takeOccurrence_keepsPending (o : Occ) (s : State) : KeepsPending s (takeOccurrence o s) :=
  setAccount_keepsPending _ _ s fun _ => rfl

section
variable {occ : Occ → State → State} (hocc : ∀ o s, KeepsPending s (occ o s))
include hocc

theorem stopPumpWith_keepsPending (r : Role) (s : State) : KeepsPending s (stopPumpWith occ r s) := by
  unfold stopPumpWith
  split
  · exact fun _ h => h
  · exact hocc _ s
  · exact fun _ h => h

theorem activationNoticeWith_keepsPending (k : AlarmClass) (s : State) :
    KeepsPending s (activationNoticeWith occ k s) := by
  unfold activationNoticeWith
  split
  · exact (stopPumpWith_keepsPending hocc _ _).trans (stopPumpWith_keepsPending hocc _ _)
  · exact fun _ h => h

theorem raiseClassWith_keepsPending (k : AlarmClass) (s : State) : KeepsPending s (raiseClassWith occ k s) := by
  unfold raiseClassWith
  split
  · exact fun _ h => h
  · exact activationNoticeWith_keepsPending hocc k (statusDue .cls (setClass k .active s))

theorem occurWith_keepsPending (o : Occ) (s : State) : KeepsPending s (occurWith occ o s) := by
  unfold occurWith
  split
  · exact takeOccurrence_keepsPending o s
  · exact (takeOccurrence_keepsPending o s).trans (raiseClassWith_keepsPending hocc _ _)

end

theorem occurFuel_keepsPending (n : Nat) : ∀ o s, KeepsPending s (occurFuel n o s) := by
  induction n with
  | zero => exact takeOccurrence_keepsPending
  | succ n ih => exact occurWith_keepsPending ih

theorem raise_keepsPending (o : Occ) (s : State) : KeepsPending s (raise o s) := occurFuel_keepsPending _ o s

theorem lowerClass_keepsPending (k : AlarmClass) (s : State) : KeepsPending s (lowerClass k s) := by
  unfold lowerClass
  dsimp only
  split <;> exact fun _ h => h

theorem report_keepsPending (src : Source) (b : Bool) (s : State) : KeepsPending s (report src b s) := by
  have base := setAccount_keepsPending src { s.event.accounts[src] with cond := b } s id
  unfold report
  split
  · exact fun _ h => h
  · dsimp only
    split
    · exact base
    · split
      · exact base.trans (raiseClassWith_keepsPending raise_keepsPending _ _)
      · exact base.trans (lowerClass_keepsPending _ _)

theorem KeepsDue.trans {s t u : State} (h : KeepsDue s t) (k : KeepsDue t u) : KeepsDue s u :=
  fun c e => k c (h c e)

theorem lowerClass_keepsDue (k : AlarmClass) (s : State) : KeepsDue s (lowerClass k s) := by
  unfold lowerClass
  dsimp only
  split
  · exact fun _ h => h
  · exact statusDue_keepsDue .cls (setClass k _ s)

/-- A report keeps a STATUS due flag that is set. -/
theorem report_keepsDue (src : Source) (b : Bool) (s : State) : KeepsDue s (report src b s) := by
  unfold report
  split
  · exact fun _ h => h
  · dsimp only
    split
    · exact fun _ h => h
    · split
      · exact raiseClassWith_keepsDue raise_keepsDue _ (setAccount src _ s)
      · exact lowerClass_keepsDue _ (setAccount src _ s)

/-! ## Records that wait -/

/-- A ROD record that waits finds the record queue full. -/
def RodHeld (s : State) : Prop := s.rod.out ≠ [] → recordRoom s = 0

/-- Every ROD record has its one frame (R5). -/
def OneFrame (s : State) : Prop := ∀ r ∈ s.rod.out, r.type = 1 ∧ r.frames.length = 1

/-- No record that waits is withdrawn, and no frame leaves the record queue. -/
structure Waits (s t : State) : Prop where
  grows : s.line.records <+: t.line.records
  rods : OneFrame s → RodHeld s → OneFrame t ∧ RodHeld t ∧ s.rod.out <+: t.rod.out
  ticket : ∀ r, s.bill.outBuffer = some r → t.bill.outBuffer = some r
  strata : isWaiting s .strata = true → isWaiting t .strata = true
  pending : KeepsPending s t
  due : KeepsDue s t

theorem Waits.refl (s : State) : Waits s s :=
  ⟨List.prefix_refl _, fun h k => ⟨h, k, List.prefix_refl _⟩, fun _ => id, id, fun _ => id, fun _ => id⟩

theorem Waits.trans {s t u : State} (h : Waits s t) (k : Waits t u) : Waits s u where
  grows := h.grows.trans k.grows
  rods := fun a b => by
    obtain ⟨a', b', p⟩ := h.rods a b
    obtain ⟨c, d, q⟩ := k.rods a' b'
    exact ⟨c, d, p.trans q⟩
  ticket := fun r e => k.ticket r (h.ticket r e)
  strata := k.strata ∘ h.strata
  pending := h.pending.trans k.pending
  due := h.due.trans k.due

theorem Waits.room {s t : State} (h : Waits s t) : recordRoom t ≤ recordRoom s := by
  have := h.grows.length_le
  unfold recordRoom; omega

/-- Nothing of the offers but the lag unit's differs. -/
theorem Waits.same {s t : State} (l : t.line = s.line) (o : t.rod.out = s.rod.out) (b : t.bill.outBuffer = s.bill.outBuffer)
    (g : isWaiting s .strata = true → isWaiting t .strata = true) (e : t.event = s.event) : Waits s t where
  grows := by rw [l]
  rods := by unfold OneFrame RodHeld recordRoom; rw [l, o]; exact fun h k => ⟨h, k, List.prefix_refl _⟩
  ticket := by rw [b]; exact fun _ => id
  strata := g
  pending := by intro q; rw [e]; exact id
  due := by intro c; rw [l]; exact id

theorem strata_waiting_congr {s t : State} (h : t.lag.hold = s.lag.hold) (q : t.lag.queue = s.lag.queue) :
    isWaiting t .strata = isWaiting s .strata := by
  unfold isWaiting offeredRecord
  rw [h, q]

theorem EventOnly.waits {s t : State} (h : EventOnly s t) (p : KeepsPending s t) (d : KeepsDue s t) : Waits s t where
  grows := by rw [h.line]
  rods := by
    unfold OneFrame RodHeld recordRoom
    rw [h.line, h.rod]
    exact fun h k => ⟨h, k, List.prefix_refl _⟩
  ticket := by rw [h.bill]; exact fun _ => id
  strata := by rw [strata_waiting_congr (congrArg _ h.lag) (congrArg _ h.lag)]; exact id
  pending := p
  due := d

/-! ## The relation -/

/-- What an operation may be exempt from keeping. -/
inductive Part where
  | links | mode | channels | job | start | tables | rods | waits

/-- What BYPASS implies of the line interface (R15, R18). -/
structure LineRest (s : State) : Prop where
  forward : s.line.forward = []
  downstream : s.line.downstream = []
  injections : s.line.injections = []

/-- What BYPASS implies of the stroke rates (R89). -/
structure CircRest (s : State) : Prop where
  rate1 : s.circ.rate1 = none
  rate2 : s.circ.rate2 = none

/-- What BYPASS implies of the activity (R57). -/
structure DepthRest (s : State) : Prop where
  activity : s.depth.activity = .untracked
  candidate : s.depth.candidate = .untracked
  dwell : s.depth.dwellStart = none

/-- What BYPASS implies of the governor (R191). -/
structure GovRest (s : State) : Prop where
  setpoint1 : s.gov.setpoint1 = none
  setpoint2 : s.gov.setpoint2 = none
  holder : s.gov.holder = .none

/-- What BYPASS implies of a unit is kept, each unit by itself. -/
structure AtRest (s t : State) : Prop where
  line : LineRest s → LineRest t
  circ : CircRest s → CircRest t
  depth : DepthRest s → DepthRest t
  gov : GovRest s → GovRest t

theorem AtRest.refl (s : State) : AtRest s s := ⟨id, id, id, id⟩

theorem AtRest.trans {s t u : State} (h : AtRest s t) (k : AtRest t u) : AtRest s u :=
  ⟨k.line ∘ h.line, k.circ ∘ h.circ, k.depth ∘ h.depth, k.gov ∘ h.gov⟩

/-- The job state with what it says something of. -/
structure SameJob (s t : State) : Prop where
  job : t.bill.job = s.bill.job
  ticketOpen : t.bill.ticketOpen = s.bill.ticketOpen
  deferred : t.bill.deferred = s.bill.deferred
  jobNumber : t.bill.jobNumber = s.bill.jobNumber
  ticketNumber : t.bill.ticketNumber = s.bill.ticketNumber
  ending : t.bill.ending.isSome = s.bill.ending.isSome
  interval : t.interval.current.isSome = s.interval.current.isSome
  clock : t.depth.clockRuns = s.depth.clockRuns

theorem SameJob.refl (s : State) : SameJob s s := ⟨rfl, rfl, rfl, rfl, rfl, rfl, rfl, rfl⟩

theorem SameJob.trans {s t u : State} (h : SameJob s t) (k : SameJob t u) : SameJob s u :=
  ⟨k.job.trans h.job, k.ticketOpen.trans h.ticketOpen, k.deferred.trans h.deferred, k.jobNumber.trans h.jobNumber,
    k.ticketNumber.trans h.ticketNumber, k.ending.trans h.ending, k.interval.trans h.interval, k.clock.trans h.clock⟩

/-- The used bit depth is within the hole (R48, R49). -/
def BitInHole (s : State) : Prop := ∀ u, s.depth.usedBit = some u → u ≤ s.depth.hole

/-- What every operation of the part keeps, but for the parts that `x` exempts. -/
structure Keeps (x : Part → Prop) (s t : State) : Prop where
  pending : t.pending = s.pending
  noticeOrder : t.noticeOrder = s.noticeOrder
  links : ¬x .links → t.line.fieldLink = s.line.fieldLink ∧ t.line.cabLink = s.line.cabLink
  reset : t.line.resetHeld = s.line.resetHeld ∧ t.line.awaitingReset = s.line.awaitingReset
  mode : ¬x .mode → t.line.mode = s.line.mode ∨ (s.line.mode = .govern ∧ t.line.mode = .observe)
  out : s.line.bypassOut = bypassAsserted s → t.line.bypassOut = bypassAsserted t
  rest : ¬x .mode → s.line.mode = .bypass → AtRest s t
  fits : Fits s → Fits t
  waits : ¬x .waits → Waits s t
  channels : ¬x .channels → t.channels = s.channels
  conds : ¬x .channels → ¬x .links → ∀ q, Reserved q → cond t q = cond s q
  tables : ¬x .tables → t.tables = s.tables
  job : ¬x .job → SameJob s t
  rodLaw : ¬x .rods → RodLaw s → RodLaw t
  sums : ¬x .rods → RodLaw s → SumsLaw s → SumsLaw t
  hole : ¬x .start → s.depth.hole ≤ t.depth.hole
  bit : BitInHole s → BitInHole t

theorem Keeps.refl {x : Part → Prop} (s : State) : Keeps x s s where
  pending := rfl
  noticeOrder := rfl
  links := fun _ => ⟨rfl, rfl⟩
  reset := ⟨rfl, rfl⟩
  mode := fun _ => .inl rfl
  out := id
  rest := fun _ _ => .refl s
  fits := id
  waits := fun _ => .refl s
  channels := fun _ => rfl
  conds := fun _ _ _ _ => rfl
  tables := fun _ => rfl
  job := fun _ => .refl s
  rodLaw := fun _ => id
  sums := fun _ _ => id
  hole := fun _ => Nat.le_refl _
  bit := id

theorem Keeps.bypass {x : Part → Prop} {s t : State} (h : Keeps x s t) (hx : ¬x .mode) (b : s.line.mode = .bypass) :
    t.line.mode = .bypass := by
  rcases h.mode hx with e | ⟨e, -⟩
  · exact e.trans b
  · rw [b] at e; cases e

/-- No operation enters BYPASS by itself. -/
theorem Keeps.notBypass {x : Part → Prop} {s t : State} (h : Keeps x s t) (hx : ¬x .mode) (b : s.line.mode ≠ .bypass) :
    t.line.mode ≠ .bypass := by
  rcases h.mode hx with e | ⟨-, e⟩ <;> rw [e]
  · exact b
  · decide

theorem Keeps.trans {x : Part → Prop} {s t u : State} (h : Keeps x s t) (k : Keeps x t u) : Keeps x s u where
  pending := k.pending.trans h.pending
  noticeOrder := k.noticeOrder.trans h.noticeOrder
  links := fun hx => ⟨(k.links hx).1.trans (h.links hx).1, (k.links hx).2.trans (h.links hx).2⟩
  reset := ⟨k.reset.1.trans h.reset.1, k.reset.2.trans h.reset.2⟩
  mode := fun hx => by
    rcases h.mode hx with a | ⟨a, b⟩ <;> rcases k.mode hx with c | ⟨c, d⟩
    · exact .inl (c.trans a)
    · exact .inr ⟨a ▸ c, d⟩
    · exact .inr ⟨a, c.trans b⟩
    · exact .inr ⟨a, d⟩
  out := k.out ∘ h.out
  rest := fun hx b => (h.rest hx b).trans (k.rest hx (h.bypass hx b))
  fits := k.fits ∘ h.fits
  waits := fun hx => (h.waits hx).trans (k.waits hx)
  channels := fun hx => (k.channels hx).trans (h.channels hx)
  conds := fun hx hy q hq => (k.conds hx hy q hq).trans (h.conds hx hy q hq)
  tables := fun hx => (k.tables hx).trans (h.tables hx)
  job := fun hx => (h.job hx).trans (k.job hx)
  rodLaw := fun hx => k.rodLaw hx ∘ h.rodLaw hx
  sums := fun hx r l => k.sums hx (h.rodLaw hx r) (h.sums hx r l)
  hole := fun hx => (h.hole hx).trans (k.hole hx)
  bit := k.bit ∘ h.bit

theorem Keeps.ite {x : Part → Prop} {s t u : State} {c : Prop} [Decidable c] (h : Keeps x s t) (k : Keeps x s u) :
    Keeps x s (if c then t else u) := by
  split <;> assumption

/-- An operation that is exempt from more. -/
theorem Keeps.mono {x y : Part → Prop} {s t : State} (h : Keeps x s t) (le : ∀ p, x p → y p) : Keeps y s t where
  pending := h.pending
  noticeOrder := h.noticeOrder
  links := fun hx => h.links (hx ∘ le _)
  reset := h.reset
  mode := fun hx => h.mode (hx ∘ le _)
  out := h.out
  rest := fun hx => h.rest (hx ∘ le _)
  fits := h.fits
  waits := fun hx => h.waits (hx ∘ le _)
  channels := fun hx => h.channels (hx ∘ le _)
  conds := fun hx hy => h.conds (hx ∘ le _) (hy ∘ le _)
  tables := fun hx => h.tables (hx ∘ le _)
  job := fun hx => h.job (hx ∘ le _)
  rodLaw := fun hx => h.rodLaw (hx ∘ le _)
  sums := fun hx => h.sums (hx ∘ le _)
  hole := fun hx => h.hole (hx ∘ le _)
  bit := h.bit

/-- The rod laws said apart. -/
theorem Keeps.withRods {x : Part → Prop} {s t : State} (h : Keeps (fun p => x p ∨ p = .rods) s t)
    (l : RodLaw s → RodLaw t) (m : RodLaw s → SumsLaw s → SumsLaw t) : Keeps x s t :=
  { h with
    links := fun hx => h.links (by simpa using hx)
    mode := fun hx => h.mode (by simpa using hx)
    rest := fun hx => h.rest (by simpa using hx)
    waits := fun hx => h.waits (by simpa using hx)
    channels := fun hx => h.channels (by simpa using hx)
    conds := fun hx hy => h.conds (by simpa using hx) (by simpa using hy)
    tables := fun hx => h.tables (by simpa using hx)
    job := fun hx => h.job (by simpa using hx)
    rodLaw := fun _ => l
    sums := fun _ => m
    hole := fun hx => h.hole (by simpa using hx) }

/-- What becomes of the records that wait said apart. -/
theorem Keeps.withWaits {x : Part → Prop} {s t : State} (h : Keeps (fun p => x p ∨ p = .waits) s t)
    (w : Waits s t) : Keeps x s t :=
  { h with
    links := fun hx => h.links (by simpa using hx)
    mode := fun hx => h.mode (by simpa using hx)
    rest := fun hx => h.rest (by simpa using hx)
    waits := fun _ => w
    channels := fun hx => h.channels (by simpa using hx)
    conds := fun hx hy => h.conds (by simpa using hx) (by simpa using hy)
    tables := fun hx => h.tables (by simpa using hx)
    job := fun hx => h.job (by simpa using hx)
    rodLaw := fun hx => h.rodLaw (by simpa using hx)
    sums := fun hx => h.sums (by simpa using hx)
    hole := fun hx => h.hole (by simpa using hx) }

/-! ## The laws are those of single units -/

/-- The rod laws are those of the rod table, the string, the candidate, the sums and the active RODCLASS. -/
theorem RodLaw.same {s t : State} (a : t.rod.table = s.rod.table) (b : t.rod.string = s.rod.string)
    (c : t.rod.candidate = s.rod.candidate) (h : RodLaw s) : RodLaw t :=
  ⟨by rw [a]; exact h.tags, by rw [b]; exact h.string, by rw [a, b]; exact h.inString, by rw [a, c]; exact h.candidate⟩

theorem stringRods_congr {s t : State} (a : t.rod.table = s.rod.table) (b : t.rod.string = s.rod.string) :
    stringRods t = stringRods s := by
  unfold stringRods findRod
  rw [a, b]

theorem rodClass_congr {s t : State} (h : activeCopy t tRodclass = activeCopy s tRodclass) : rodClass t = rodClass s := by
  unfold rodClass activePages
  rw [h]

theorem SumsLaw.same {s t : State} (a : t.rod.table = s.rod.table) (b : t.rod.string = s.rod.string)
    (l : t.rod.length = s.rod.length) (w : t.rod.weight = s.rod.weight) (v : t.rod.steel = s.rod.steel)
    (c : activeCopy t tRodclass = activeCopy s tRodclass) (h : SumsLaw s) : SumsLaw t := by
  obtain ⟨h1, h2, h3⟩ := h
  constructor <;> rw [stringRods_congr a b]
  · rw [l, h1]
  · rw [w, h2, rodClass_congr c]
  · rw [v, h3, rodClass_congr c]

theorem Fits.same {s t : State} (l : t.line = s.line) (r : t.rod = s.rod) (g : t.lag = s.lag)
    (b : t.bill.outBuffer = s.bill.outBuffer) (e : t.event = s.event) (h : Fits s) : Fits t := by
  obtain ⟨h1, h2, h3, h4, h5, h6, h7, h8, h9, h10, h11, h12, h13, h14, h15, h16, h17⟩ := h
  constructor <;> first | rwa [l] | rwa [r] | rwa [g] | rwa [b] | rwa [e]

theorem LineRest.same {s t : State} (h : t.line = s.line) : LineRest s → LineRest t :=
  fun ⟨h1, h2, h3⟩ => by constructor <;> rwa [h]

theorem CircRest.same {s t : State} (h : t.circ = s.circ) : CircRest s → CircRest t :=
  fun ⟨h1, h2⟩ => by constructor <;> rwa [h]

theorem DepthRest.same {s t : State} (h : t.depth = s.depth) : DepthRest s → DepthRest t :=
  fun ⟨h1, h2, h3⟩ => by constructor <;> rwa [h]

theorem GovRest.same {s t : State} (h : t.gov = s.gov) : GovRest s → GovRest t :=
  fun ⟨h1, h2, h3⟩ => by constructor <;> rwa [h]

theorem AtRest.same {s t : State} (l : t.line = s.line) (c : t.circ = s.circ) (d : t.depth = s.depth) (g : t.gov = s.gov) :
    AtRest s t := ⟨.same l, .same c, .same d, .same g⟩

/-- What occurrences and admissions leave of what BYPASS implies. -/
theorem AtRest.quiet {s t : State} (f : t.line.forward = s.line.forward) (d : t.line.downstream = s.line.downstream)
    (i : t.line.injections = s.line.injections) (c : t.circ = s.circ) (e : t.depth = s.depth) (g : t.gov = s.gov) :
    AtRest s t where
  line := fun ⟨h1, h2, h3⟩ => ⟨f.trans h1, d.trans h2, i.trans h3⟩
  circ := .same c
  depth := .same e
  gov := .same g

/-! ## Occurrences, reports and the writing of one unit -/

section
variable {x : Part → Prop} {s t : State}

/-- What only the event unit's share separates. -/
theorem EventOnly.keeps (h : EventOnly s t) (p : KeepsPending s t) (d : KeepsDue s t)
    (c : ¬x .channels → ¬x .links → ∀ q, Reserved q → cond t q = cond s q) : Keeps x s t where
  pending := h.pending
  noticeOrder := h.noticeOrder
  links := fun _ => by rw [h.line]; exact ⟨rfl, rfl⟩
  reset := by rw [h.line]; exact ⟨rfl, rfl⟩
  mode := fun _ => .inl h.mode
  out := fun m => by unfold bypassAsserted inReset at *; rw [h.line]; exact m
  rest := fun _ b => .quiet (by rw [h.line]) (by rw [h.line]) (h.quiet (by rw [b]; decide)) h.circ h.depth h.gov
  fits := fun f => by
    obtain ⟨h1, h2, h3, h4, h5, h6, h7, h8, h9, h10, h11, h12, h13, h14, h15, h16, h17⟩ := f
    constructor
    case injections => exact h.size h4
    case counts => exact h.counts h17
    all_goals first | (rw [h.line]; assumption) | (rw [h.rod]; assumption) | (rw [h.lag]; assumption) | (rw [h.bill]; assumption)
  waits := fun _ => h.waits p d
  channels := fun _ => h.channels
  conds := c
  tables := fun _ => h.tables
  job := fun _ => by
    constructor <;> first | rw [h.bill] | rw [h.interval] | rw [h.depth]
  rodLaw := fun _ => RodLaw.same (by rw [h.rod]) (by rw [h.rod]) (by rw [h.rod])
  sums := fun _ _ => SumsLaw.same (by rw [h.rod]) (by rw [h.rod]) (by rw [h.rod]) (by rw [h.rod]) (by rw [h.rod])
    (by unfold activeCopy; rw [h.tables])
  hole := fun _ => by rw [h.depth]
  bit := fun b => by unfold BitInHole; rw [h.depth]; exact b

end

section
variable {x : Part → Prop} (s : State)

theorem Keeps.raise (o : Occ) : Keeps x s (raise o s) :=
  (raise_eventOnly o s).keeps (raise_keepsPending o s) (raise_keepsDue o s) fun _ _ q _ => raise_cond o s q

theorem Keeps.occurNat (src : Source) (d : Nat) : Keeps x s (occurNat src d s) := Keeps.raise s _

/-- A report of a source of the channel unit or of the links is exempt from keeping their conditions. -/
theorem Keeps.report (src : Source) (b : Bool) (h : Reserved src → x .channels ∨ x .links) : Keeps x s (report src b s) :=
  (report_eventOnly src b s).keeps (report_keepsPending src b s) (report_keepsDue src b s) fun hx hy q hq => by
    rw [report_cond, if_neg]
    rintro rfl
    exact (h hq).elim hx hy

theorem not_reserved {src : Source} (h : 32 ≤ src.val) (h' : src ≠ srcLinkDown) : ¬Reserved src := by
  rintro (a | a)
  · omega
  · exact h' a

theorem Keeps.setCondition (src : Source) (b : Bool) (d : BitVec 32) (h : 32 ≤ src.val) (h' : src ≠ srcLinkDown) :
    Keeps x s (setCondition src b d s) :=
  have r := Keeps.report s src b fun k => absurd k (not_reserved h h')
  Keeps.ite (r.trans (Keeps.raise _ _)) r

theorem Keeps.statusDue (c : StatusCause) : Keeps x s (statusDue c s) :=
  (statusDue_eventOnly c s).keeps (fun _ => id) (statusDue_keepsDue c s) fun _ _ _ _ => rfl

theorem Keeps.inject (r : Role) (b : Nat × Nat) (v : Nat) (g : s.line.mode = .govern) : Keeps x s (inject r b v s) :=
  (inject_eventOnly r b v s g).keeps (fun _ => id) (fun _ => id) fun _ _ _ _ => rfl

/-- Writing the depth unit. -/
theorem Keeps.depth (d : DepthState) (hole : ¬x .start → s.depth.hole ≤ d.hole)
    (bit : BitInHole s → ∀ u, d.usedBit = some u → u ≤ d.hole) (clock : ¬x .job → d.clockRuns = s.depth.clockRuns)
    (rest : ¬x .mode → s.line.mode = .bypass → DepthRest s →
      d.activity = .untracked ∧ d.candidate = .untracked ∧ d.dwellStart = none) : Keeps x s (s.setDepth d) :=
  { Keeps.refl s with
    out := id
    rest := fun hx b =>
      { line := .same rfl, circ := .same rfl, gov := .same rfl
        depth := fun r => by
          obtain ⟨h1, h2, h3⟩ := rest hx b r
          exact ⟨h1, h2, h3⟩ }
    fits := Fits.same rfl rfl rfl rfl rfl
    waits := fun _ => Waits.same rfl rfl rfl id rfl
    conds := fun _ _ _ _ => rfl
    job := fun hx => { SameJob.refl s with clock := clock hx }
    rodLaw := fun _ => RodLaw.same rfl rfl rfl
    sums := fun _ _ => SumsLaw.same rfl rfl rfl rfl rfl rfl
    hole := hole
    bit := bit }

/-- Writing the depth unit but for the hole, the used bit depth, the clock and the activity. -/
theorem Keeps.depthSame (d : DepthState) (hole : d.hole = s.depth.hole) (bit : d.usedBit = s.depth.usedBit)
    (clock : d.clockRuns = s.depth.clockRuns) (a : d.activity = s.depth.activity) (c : d.candidate = s.depth.candidate)
    (w : d.dwellStart = s.depth.dwellStart) : Keeps x s (s.setDepth d) :=
  Keeps.depth s d (fun _ => hole.ge) (by rw [hole, bit]; exact id) (fun _ => clock)
    (by rw [a, c, w]; exact fun _ _ r => ⟨r.activity, r.candidate, r.dwell⟩)

/-- Writing the circulation unit. -/
theorem Keeps.circ (c : CircState)
    (rest : ¬x .mode → s.line.mode = .bypass → CircRest s → c.rate1 = none ∧ c.rate2 = none) : Keeps x s (s.setCirc c) :=
  { Keeps.refl s with
    out := id
    rest := fun hx b =>
      { line := .same rfl, depth := .same rfl, gov := .same rfl
        circ := fun r => by
          obtain ⟨h1, h2⟩ := rest hx b r
          exact ⟨h1, h2⟩ }
    fits := Fits.same rfl rfl rfl rfl rfl
    waits := fun _ => Waits.same rfl rfl rfl id rfl
    conds := fun _ _ _ _ => rfl
    job := fun _ => ⟨rfl, rfl, rfl, rfl, rfl, rfl, rfl, rfl⟩
    rodLaw := fun _ => RodLaw.same rfl rfl rfl
    sums := fun _ _ => SumsLaw.same rfl rfl rfl rfl rfl rfl }

theorem Keeps.circSame (c : CircState) (h1 : c.rate1 = s.circ.rate1) (h2 : c.rate2 = s.circ.rate2) :
    Keeps x s (s.setCirc c) :=
  Keeps.circ s c fun _ _ r => ⟨h1.trans r.rate1, h2.trans r.rate2⟩

/-- Writing the command governor. -/
theorem Keeps.gov (g : GovState)
    (rest : ¬x .mode → s.line.mode = .bypass → GovRest s →
      g.setpoint1 = none ∧ g.setpoint2 = none ∧ g.holder = .none) : Keeps x s (s.setGov g) :=
  { Keeps.refl s with
    out := id
    rest := fun hx b =>
      { line := .same rfl, circ := .same rfl, depth := .same rfl
        gov := fun r => by
          obtain ⟨h1, h2, h3⟩ := rest hx b r
          exact ⟨h1, h2, h3⟩ }
    fits := Fits.same rfl rfl rfl rfl rfl
    waits := fun _ => Waits.same rfl rfl rfl id rfl
    conds := fun _ _ _ _ => rfl
    job := fun _ => ⟨rfl, rfl, rfl, rfl, rfl, rfl, rfl, rfl⟩
    rodLaw := fun _ => RodLaw.same rfl rfl rfl
    sums := fun _ _ => SumsLaw.same rfl rfl rfl rfl rfl rfl }

/-- Writing the command governor out of BYPASS. -/
theorem Keeps.govIn (g : GovState) (h : s.line.mode ≠ .bypass) : Keeps x s (s.setGov g) :=
  Keeps.gov s g fun _ b => absurd b h

/-- Writing the interval unit. -/
theorem Keeps.interval (i : IntervalState) (h : ¬x .job → i.current.isSome = s.interval.current.isSome) :
    Keeps x s (s.setInterval i) :=
  { Keeps.refl s with
    out := id
    rest := fun _ _ => AtRest.same rfl rfl rfl rfl
    fits := Fits.same rfl rfl rfl rfl rfl
    waits := fun _ => Waits.same rfl rfl rfl id rfl
    conds := fun _ _ _ _ => rfl
    job := fun hx => { SameJob.refl s with interval := h hx }
    rodLaw := fun _ => RodLaw.same rfl rfl rfl
    sums := fun _ _ => SumsLaw.same rfl rfl rfl rfl rfl rfl }

/-- Writing the billing unit but for its out-buffer. -/
theorem Keeps.bill (b : BillState) (o : b.outBuffer = s.bill.outBuffer) (h : ¬x .job → SameJob s (s.setBill b)) :
    Keeps x s (s.setBill b) :=
  { Keeps.refl s with
    out := id
    rest := fun _ _ => AtRest.same rfl rfl rfl rfl
    fits := Fits.same rfl rfl rfl o rfl
    waits := fun _ => Waits.same rfl rfl o id rfl
    conds := fun _ _ _ _ => rfl
    job := h
    rodLaw := fun _ => RodLaw.same rfl rfl rfl
    sums := fun _ _ => SumsLaw.same rfl rfl rfl rfl rfl rfl }

/-- Writing the lag unit within its sizes, what it offers staying on offer. -/
theorem Keeps.lag (l : LagState) (q : s.lag.queue.length ≤ 64 → l.queue.length ≤ 64)
    (h : s.lag.hold.length ≤ 4 → l.hold.length ≤ 4)
    (w : ¬x .waits → isWaiting s .strata = true → isWaiting (s.setLag l) .strata = true) : Keeps x s (s.setLag l) :=
  { Keeps.refl s with
    out := id
    rest := fun _ _ => AtRest.same rfl rfl rfl rfl
    fits := fun f => { f with lagQueue := q f.lagQueue, lagHold := h f.lagHold }
    waits := fun hx => Waits.same rfl rfl rfl (w hx) rfl
    conds := fun _ _ _ _ => rfl
    job := fun _ => ⟨rfl, rfl, rfl, rfl, rfl, rfl, rfl, rfl⟩
    rodLaw := fun _ => RodLaw.same rfl rfl rfl
    sums := fun _ _ => SumsLaw.same rfl rfl rfl rfl rfl rfl }

/-- Writing the rod unit but for its out-queue, within its sizes. -/
theorem Keeps.rod (r : RodState) (o : r.out = s.rod.out) (t : s.rod.table.length ≤ 256 → r.table.length ≤ 256)
    (n : s.rod.string.length ≤ 250 → r.string.length ≤ 250)
    (c : (∀ h, s.rod.loadHeader = some h → h.count ≤ 250) → ∀ h, r.loadHeader = some h → h.count ≤ 250)
    (law : ¬x .rods → RodLaw s → RodLaw (s.setRod r))
    (sums : ¬x .rods → RodLaw s → SumsLaw s → SumsLaw (s.setRod r)) : Keeps x s (s.setRod r) :=
  { Keeps.refl s with
    out := id
    rest := fun _ _ => AtRest.same rfl rfl rfl rfl
    fits := fun f =>
      { f with
        rodTable := t f.rodTable, string := n f.string, loadCount := c f.loadCount
        rodOut := by rw [State.setRod_rod, o]; exact f.rodOut
        rodRecords := by rw [State.setRod_rod, o]; exact f.rodRecords }
    waits := fun _ => Waits.same rfl o rfl id rfl
    conds := fun _ _ _ _ => rfl
    job := fun _ => ⟨rfl, rfl, rfl, rfl, rfl, rfl, rfl, rfl⟩
    rodLaw := law
    sums := sums }

/-- Writing the rod unit but for its table, string, candidate, load header, sums and out-queue. -/
theorem Keeps.rodSame (r : RodState) (o : r.out = s.rod.out) (t : r.table = s.rod.table) (n : r.string = s.rod.string)
    (d : r.candidate = s.rod.candidate) (c : r.loadHeader = s.rod.loadHeader) (l : r.length = s.rod.length)
    (w : r.weight = s.rod.weight) (v : r.steel = s.rod.steel) : Keeps x s (s.setRod r) :=
  Keeps.rod s r o (by rw [t]; exact id) (by rw [n]; exact id) (by rw [c]; exact id) (fun _ => RodLaw.same t n d)
    fun _ _ => SumsLaw.same t n l w v rfl

end

end Sys2Proof.Machine

/-! # What the units' operations keep -/

namespace Sys2Proof.Machine

/-! ## The command governor -/

section
variable {x : Part → Prop} (s : State)

theorem remember_keeps (r : Role) (v : Option Nat) (h : s.line.mode ≠ .bypass ∨ v = none) :
    Keeps x s (remember r v s) := by
  have rest : s.line.mode = .bypass → v = none := fun b => h.resolve_left (· b)
  unfold remember
  split
  · exact Keeps.gov s _ fun _ b r => ⟨rest b, r.setpoint2, r.holder⟩
  · exact Keeps.gov s _ fun _ b r => ⟨r.setpoint1, rest b, r.holder⟩
  · exact Keeps.refl s

theorem govOccur_keeps (src : Source) (d : BitVec 32) : Keeps x s (govOccur src d s) := Keeps.raise s _

theorem holdStartRole_keeps (r : Role) : Keeps x s (holdStartRole r s) := by
  unfold holdStartRole
  split
  · refine Keeps.ite ?_ (Keeps.refl s)
    split
    · exact Keeps.inject s _ _ _ ‹_›
    · exact govOccur_keeps s _ _
    · exact Keeps.refl s
  · exact Keeps.refl s

theorem holdStart_keeps : Keeps x s (holdStart s) := (holdStartRole_keeps s _).trans (holdStartRole_keeps _ _)

theorem refuse_keeps (src : Source) (c a : Nat) (f : Frame) : Keeps x s (refuse src c a f s).2 := govOccur_keeps s _ _

theorem govOccur_mode (src : Source) (d : BitVec 32) : (govOccur src d s).line.mode = s.line.mode :=
  (raise_eventOnly _ s).mode

section
variable (m : s.line.mode ≠ .bypass)
include m

theorem governPump_keeps (r : Role) (f : Frame) (v : Nat) : Keeps x s (governPump r f v s).2 := by
  have clamp : ∀ d w, Keeps x s (remember r w (govOccur srcPumpClamp d s)) := fun d w =>
    (govOccur_keeps s _ d).trans (remember_keeps _ r w (.inl (by rwa [govOccur_mode])))
  unfold governPump
  split
  · exact remember_keeps s _ _ (.inl m)
  · split
    · exact remember_keeps s _ _ (.inl m)
    · split
      · exact clamp _ _
      · exact clamp _ _

theorem claimHandler_keeps : Keeps x s (claimHandler s) := Keeps.govIn s _ m

theorem governHandler_keeps (f : Frame) (v : Nat) : Keeps x s (governHandler f v s).2 := by
  unfold governHandler
  split
  · exact Keeps.ite (claimHandler_keeps s m) (Keeps.refl s)
  · refine Keeps.ite ((refuse_keeps s _ _ _ f).trans (claimHandler_keeps _ ?_)) (refuse_keeps s _ _ _ _)
    exact (govOccur_mode s _ _).trans_ne m

/-- Governing a frame out of BYPASS (R179). -/
theorem govern_keeps (f : Frame) : Keeps x s (govern f s).2 := by
  have sent : Keeps x s s := Keeps.refl s
  have refused := fun src c a => refuse_keeps (x := x) s src c a f
  unfold govern
  split
  · unfold governRole
    split
    · exact sent
    · split
      · exact governPump_keeps s m _ _ _
      · exact governPump_keeps s m _ _ _
      · unfold governHoist
        repeat' split
        all_goals first | exact sent | exact refused _ _ _
      · unfold governSlips
        repeat' split
        all_goals first | exact sent | exact refused _ _ _ | (dsimp only; split <;> first | exact sent | exact refused _ _ _)
      · unfold governTong
        split
        · exact refused _ _ _
        · exact sent
      · exact governHandler_keeps s m f _
  · exact sent

/-- An injection as its transmission begins (R182, R184). -/
theorem beginInjection_keeps (i : Injection) : Keeps x s (beginInjection i s).2 := by
  unfold beginInjection
  dsimp only
  split
  · split
    · split
      · exact (govOccur_keeps s _ _).trans (remember_keeps _ _ _ (.inl ((govOccur_mode s _ _).trans_ne m)))
      · exact remember_keeps s _ _ (.inl m)
    · exact remember_keeps s _ _ (.inl m)
  · exact Keeps.refl s

theorem blockSample_keeps (v : Nat) : Keeps x s (blockSample v s) := by
  have entered : ∀ t : State, Keeps x t (zoneEntered v t) := fun t => by
    unfold zoneEntered
    dsimp only
    refine Keeps.trans ?_ (govOccur_keeps _ _ _)
    split
    · exact Keeps.inject t _ _ _ ‹_›
    · exact Keeps.refl t
  have written : ∀ g g' : GovState, Keeps x s ((s.setGov g).setGov g') := fun g g' =>
    (Keeps.govIn s g m).trans (Keeps.govIn _ g' m)
  unfold blockSample
  dsimp only
  split
  · exact Keeps.govIn s _ m
  · split
    · split
      · exact (written _ _).trans (entered _)
      · exact written _ _
    · exact written _ _

theorem handlerSample_keeps (v : Nat) : Keeps x s (handlerSample v s) := by
  have written : ∀ g : GovState, Keeps x s (s.setGov g) := fun g => Keeps.govIn s g m
  unfold handlerSample
  exact Keeps.ite (Keeps.ite (written _) (Keeps.ite (Keeps.ite (written _) (Keeps.refl s)) (written _))) (Keeps.refl s)

end

theorem governorBypass_keeps : Keeps x s (governorBypass s) := Keeps.gov s _ fun _ _ _ => ⟨rfl, rfl, rfl⟩

end

/-! ## The billing unit -/

section
variable {x : Part → Prop} (s : State)

theorem accrue_keeps (key q r : Nat) : Keeps x s (accrue key q r s) := by
  unfold accrue
  split
  · exact Keeps.bill s _ rfl fun _ => ⟨rfl, rfl, rfl, rfl, rfl, rfl, rfl, rfl⟩
  · exact Keeps.refl s

theorem billInterval_keeps (n : BillingNotice) : Keeps x s (billInterval n s) := by
  unfold billInterval
  refine Keeps.ite ?_ (Keeps.refl s)
  refine Keeps.trans ?_ (Keeps.bill _ _ rfl fun _ => ⟨rfl, rfl, rfl, rfl, rfl, rfl, rfl, rfl⟩)
  exact Keeps.ite ((accrue_keeps s _ _ _).trans (accrue_keeps _ _ _ _)) (accrue_keeps s _ _ _)

theorem billSecond_keeps (a : Activity) : Keeps x s (billSecond a s) := Keeps.ite (accrue_keeps s _ _ _) (Keeps.refl s)

theorem billWater_keeps (d : Nat) : Keeps x s (billWater d s) := Keeps.ite (accrue_keeps s _ _ _) (Keeps.refl s)

theorem billRod_keeps : Keeps x s (billRod s) := Keeps.ite (accrue_keeps s _ _ _) (Keeps.refl s)

theorem clearLines_keeps : Keeps x s (clearLines s) := Keeps.bill s _ rfl fun _ => ⟨rfl, rfl, rfl, rfl, rfl, rfl, rfl, rfl⟩

end

/-! ## The lag unit -/

/-- A STRATA record is on offer while the hold keeps one, or the head of the lag queue is DUE or FORCED (R121). -/
theorem strata_waiting_iff (s : State) :
    isWaiting s .strata = true ↔ s.lag.hold ≠ [] ∨ ∃ e, s.lag.queue.head? = some e ∧ e.isWaiting = false := by
  unfold isWaiting offeredRecord
  cases s.lag.hold with
  | cons => simp
  | nil => cases s.lag.queue with
    | nil => simp
    | cons e rest => by_cases h : e.isWaiting = true <;> simp [h]

section
variable {x : Part → Prop} (s : State)

theorem releaseUnlagged_keeps (r : Strata) : Keeps x s (releaseUnlagged r s) := by
  unfold releaseUnlagged
  split
  · refine Keeps.lag s _ id (fun _ => by simp; omega) fun _ _ => ?_
    rw [strata_waiting_iff]
    exact .inl (by simp)
  · exact Keeps.occurNat s _ _

theorem lagJoin_keeps (pages : List Page) (r : Strata) (h : s.lag.queue.length < 64) : Keeps x s (lagJoin pages r s) := by
  unfold lagJoin
  refine Keeps.lag s _ (fun _ => by simp; omega) id fun _ w => ?_
  rw [strata_waiting_iff] at w ⊢
  exact w.imp id fun ⟨e, he, k⟩ => ⟨e, by simp [List.head?_append, he], k⟩

theorem profileEnd_keeps (pages : List Page) (b : Nat) : Keeps x s (profileEnd pages b s) :=
  Keeps.ite (Keeps.occurNat s _ _) (Keeps.refl s)

/-- A closed interval's record reaches the lag unit (R117). -/
theorem lagTake_keeps (r : Strata) : Keeps x s (lagTake r s) := by
  unfold lagTake
  split
  · exact releaseUnlagged_keeps s r
  · dsimp only
    split
    · exact (profileEnd_keeps s _ _).trans (lagJoin_keeps _ _ _ ‹_›)
    · exact ((profileEnd_keeps s _ _).trans (Keeps.occurNat _ _ _)).trans (releaseUnlagged_keeps _ _)

/-- The walk passes over a head that is on offer. -/
theorem arrivalWalk_head {v : Nat} {st : LagStage} {l : List LagEntry} {e : LagEntry} (h : l.head? = some e)
    (w : e.isWaiting = false) : (arrivalWalk v st l).head? = some e := by
  cases l with
  | nil => cases h
  | cons a rest =>
    obtain rfl : a = e := by simpa using h
    simp [arrivalWalk, w]

theorem lagArrivals_keeps : Keeps x s (lagArrivals s) := by
  refine Keeps.lag s _ (fun h => by rw [arrivalWalk_length]; exact h) id fun _ w => ?_
  rw [strata_waiting_iff] at w ⊢
  exact w.imp id fun ⟨e, he, k⟩ => ⟨e, arrivalWalk_head he k, k⟩

theorem force_of_not_waiting (t : Nat) {e : LagEntry} (h : e.isWaiting = false) : e.force t = e := by
  simp [LagEntry.force, h]

theorem lagFlush_keeps : Keeps x s (lagFlush s) := by
  refine Keeps.lag s _ (fun h => by simpa using h) id fun _ w => ?_
  rw [strata_waiting_iff] at w ⊢
  exact w.imp id fun ⟨e, he, k⟩ => ⟨e, by simp [he, force_of_not_waiting _ k], k⟩

theorem flushCompletion_keeps : Keeps x s (flushCompletion s) := by
  refine Keeps.ite ((Keeps.lag s { s.lag with flushWatch := false } id id fun _ w => w).trans ?_) (Keeps.refl s)
  refine Keeps.bill _ _ rfl fun _ => ⟨rfl, rfl, rfl, rfl, rfl, ?_, rfl, rfl⟩
  exact Option.isSome_map

end

/-! ## The interval unit -/

section
variable {x : Part → Prop} (s : State)

theorem intervalTorque_keeps (torque dt : Nat) : Keeps x s (intervalTorque torque dt s) := by
  unfold intervalTorque
  split
  · next o e =>
    exact Keeps.ite (Keeps.interval s _ fun _ => by rw [e]; rfl) (Keeps.refl s)
  · exact Keeps.refl s

theorem markLoss_keeps : Keeps x s (markLoss s) := Keeps.interval s _ fun _ => Option.isSome_map

theorem classifyClose_keeps (o : OpenInterval) (r : Strata) : Keeps x s (classifyClose o r s) := by
  unfold classifyClose
  split
  · exact Keeps.interval s _ fun _ => rfl
  · exact Keeps.occurNat s _ _

/-- The interval that has closed is not open any more, and its number has been counted (R141). -/
def countClosed (s : State) : State :=
  s.setInterval { s.interval with current := none, counter := nextNumber s.interval.counter }

/-- A close up to the notices of the record, before the next interval opens (R141). -/
def closed (o : OpenInterval) (t : Trigger) (bottom : Nat) (s : State) : State :=
  let r := buildStrata o t bottom (jobTime s)
  let s3 := lagTake r (countClosed (classifyClose o r s))
  billInterval { number := r.number, top := r.top, length := bottom - r.top,
                 cls := r.cls.getD s3.interval.currentClass, loss := r.loss } s3

/-- A close: the open interval closes, and, but after an END close, the next one opens (R140, R141). -/
theorem closeInterval_some {o : OpenInterval} (h : s.interval.current = some o) (t : Trigger) (bottom : Nat) :
    closeInterval t bottom s =
      if t = .theEnd then closed o t bottom s else openInterval (some (t, o.boundary)) bottom (closed o t bottom s) := by
  unfold closeInterval
  rw [h]
  rfl

theorem closed_keeps (o : OpenInterval) (t : Trigger) (bottom : Nat) (hx : x .job) : Keeps x s (closed o t bottom s) :=
  (((classifyClose_keeps s o _).trans (Keeps.interval _ _ (absurd hx))).trans (lagTake_keeps _ _)).trans
    (billInterval_keeps _ _)

theorem openInterval_keeps (c : Option (Trigger × Option Nat)) (top : Nat) (hx : x .job) :
    Keeps x s (openInterval c top s) := Keeps.interval s _ (absurd hx)

/-- What becomes of the job said apart. -/
theorem Keeps.withJob {x : Part → Prop} {s t : State} (h : Keeps (fun p => x p ∨ p = .job) s t) (j : SameJob s t) :
    Keeps x s t :=
  { h with
    links := fun hx => h.links (by simpa using hx)
    mode := fun hx => h.mode (by simpa using hx)
    rest := fun hx => h.rest (by simpa using hx)
    waits := fun hx => h.waits (by simpa using hx)
    channels := fun hx => h.channels (by simpa using hx)
    conds := fun hx hy => h.conds (by simpa using hx) (by simpa using hy)
    tables := fun hx => h.tables (by simpa using hx)
    job := fun _ => j
    rodLaw := fun hx => h.rodLaw (by simpa using hx)
    sums := fun hx => h.sums (by simpa using hx)
    hole := fun hx => h.hole (by simpa using hx) }

/-- What a close leaves of the job: all but that no interval is open. -/
theorem closed_job (o : OpenInterval) (t : Trigger) (bottom : Nat) :
    SameJob (s.setInterval { s.interval with current := none }) (closed o t bottom s) := by
  have a := (classifyClose_keeps (x := fun _ => False) s o (buildStrata o t bottom (jobTime s))).job id
  let counted := countClosed (classifyClose o (buildStrata o t bottom (jobTime s)) s)
  have b : SameJob counted (closed o t bottom s) :=
    Keeps.job (x := fun _ => False) ((lagTake_keeps counted _).trans (billInterval_keeps _ _)) id
  exact ⟨b.job.trans a.job, b.ticketOpen.trans a.ticketOpen, b.deferred.trans a.deferred, b.jobNumber.trans a.jobNumber,
    b.ticketNumber.trans a.ticketNumber, b.ending.trans a.ending, b.interval, b.clock.trans a.clock⟩

/-- A close by another trigger than END (R141). -/
theorem closeInterval_keeps (t : Trigger) (bottom : Nat) (h : t ≠ .theEnd ∨ x .job) :
    Keeps x s (closeInterval t bottom s) := by
  cases e : s.interval.current with
  | none => unfold closeInterval; rw [e]; exact Keeps.refl s
  | some o =>
    rw [closeInterval_some s e]
    split
    · next th => exact closed_keeps s o t bottom (h.resolve_left (· th))
    · refine Keeps.withJob ((closed_keeps s o t bottom (.inr rfl)).trans (openInterval_keeps _ _ _ (.inr rfl))) ?_
      have c := closed_job s o t bottom
      exact { c with interval := by rw [e]; rfl }

theorem intervalAdvance_keeps (a n w : Nat) : Keeps x s (intervalAdvance a n w s) := by
  unfold intervalAdvance
  split
  · exact Keeps.refl s
  · next o e =>
    have thrust : Keeps x s (s.setInterval { s.interval with
        current := some { o with sumThrust := addSum o.sumThrust (w * a) } }) :=
      Keeps.interval s _ fun _ => by rw [e]; rfl
    dsimp only
    split
    · split
      · exact thrust.trans (closeInterval_keeps _ _ _ (.inl (by decide)))
      · exact thrust
    · exact thrust

theorem shiftCut_keeps : Keeps x s (shiftCut s) :=
  Keeps.ite (closeInterval_keeps s _ _ (.inl (by decide))) (Keeps.refl s)

theorem endCut_keeps (hx : x .job) : Keeps x s (endCut s) :=
  Keeps.ite (closeInterval_keeps s _ _ (.inr hx)) (Keeps.interval s _ (absurd hx))

theorem intervalClear_keeps (hx : x .job) : Keeps x s (intervalClear s) := Keeps.interval s _ (absurd hx)

end

/-! ## The circulation unit -/

section
variable {x : Part → Prop} (s : State)

theorem evalNoFlow_keeps : Keeps x s (evalNoFlow s) := Keeps.setCondition s _ _ _ (by decide) (by decide)

theorem evalReturnLow_keeps : Keeps x s (evalReturnLow s) := Keeps.setCondition s _ _ _ (by decide) (by decide)

theorem pumpingChanged_keeps : Keeps x s (pumpingChanged s) := (evalNoFlow_keeps s).trans (evalReturnLow_keeps _)

theorem recomputeFlow_keeps : Keeps x s (recomputeFlow s) := Keeps.circSame s _ rfl rfl

/-- A stroke rate; in BYPASS it can become absent only. -/
theorem setRate_keeps (p : Pump) (r : Option Nat) (h : s.line.mode ≠ .bypass ∨ r = none) :
    Keeps x s (setRate p r s) := by
  have rest : s.line.mode = .bypass → r = none := fun b => h.resolve_left (· b)
  unfold setRate
  split
  · exact Keeps.refl s
  · dsimp only
    refine Keeps.trans (Keeps.trans ?_ (recomputeFlow_keeps _)) (pumpingChanged_keeps _)
    split
    · exact Keeps.circ s _ fun _ b r => ⟨rest b, r.rate2⟩
    · exact Keeps.circ s _ fun _ b r => ⟨r.rate1, rest b⟩

theorem addStrokes_keeps (p : Pump) (d : Nat) : Keeps x s (addStrokes p d s) := by
  unfold addStrokes
  split
  · exact Keeps.ite (Keeps.refl s) ((Keeps.circSame s _ (by rfl) (by rfl)).trans (lagArrivals_keeps _))
  · exact Keeps.refl s

theorem strokeSample_keeps (p : Pump) (d dt : Nat) (m : s.line.mode ≠ .bypass) : Keeps x s (strokeSample p d dt s) :=
  (setRate_keeps s _ _ (.inl m)).trans (addStrokes_keeps _ _ _)

theorem setPitLoss_keeps (b : Bool) : Keeps x s (setPitLoss b s) :=
  have r := Keeps.setCondition s srcPitLoss b _ (by decide) (by decide)
  Keeps.ite (r.trans (markLoss_keeps _)) r

theorem setPitGain_keeps (b : Bool) : Keeps x s (setPitGain b s) := Keeps.setCondition s _ _ _ (by decide) (by decide)

theorem pitWatch_keeps : Keeps x s (pitWatch s) := by
  unfold pitWatch
  split
  · exact Keeps.refl s
  · exact (setPitGain_keeps s _).trans (setPitLoss_keeps _ _)
  · exact (setPitGain_keeps s _).trans (setPitLoss_keeps _ _)

theorem adjustPit_keeps (a : Int) : Keeps x s (adjustPit a s) :=
  Keeps.ite (Keeps.circSame s _ (by rfl) (by rfl)) (Keeps.refl s)

theorem pitAdjustment_keeps (a : Int) : Keeps x s (pitAdjustment a s) :=
  Keeps.ite ((adjustPit_keeps s _).trans (pitWatch_keeps _)) (Keeps.refl s)

theorem pitSample_keeps : Keeps x s (pitSample s) :=
  Keeps.ite ((Keeps.circSame s _ (by rfl) (by rfl)).trans (pitWatch_keeps _)) (Keeps.refl s)

theorem pitBaseline_keeps (v : Nat) : Keeps x s (pitBaseline v s) :=
  ((((Keeps.circSame s _ (by rfl) (by rfl)).trans (setPitGain_keeps _ _)).trans (setPitLoss_keeps _ _)).trans
    (Keeps.setCondition _ _ _ _ (by decide) (by decide))).trans (pitWatch_keeps _)

theorem pitAtRest_keeps : Keeps x s (pitAtRest s) := Keeps.circSame s _ rfl rfl

theorem pitSuspend_keeps (c : Nat) : Keeps x s (pitSuspend c s) :=
  (((pitAtRest_keeps s).trans (setPitGain_keeps _ _)).trans (setPitLoss_keeps _ _)).trans
    (Keeps.setCondition _ _ _ _ (by decide) (by decide))

theorem pitStateNotice_keeps (v : ValueState) : Keeps x s (pitStateNotice v s) :=
  Keeps.ite (pitSuspend_keeps s _) (Keeps.refl s)

theorem pitVolumeSample_keeps (v : Nat) (b : ValueState) : Keeps x s (pitVolumeSample v b s) :=
  Keeps.ite (pitBaseline_keeps s _) (pitSample_keeps s)

theorem pitLeaveBypass_keeps : Keeps x s (pitLeaveBypass s) := pitSuspend_keeps s _

theorem pitJobEnd_keeps : Keeps x s (pitJobEnd s) := by
  unfold pitJobEnd
  split
  · split
    · exact pitBaseline_keeps s _
    · exact Keeps.ite (pitSuspend_keeps s _) (Keeps.refl s)
  · exact (((pitAtRest_keeps s).trans (setPitGain_keeps _ _)).trans (setPitLoss_keeps _ _)).trans
      (Keeps.setCondition _ _ _ _ (by decide) (by decide))

theorem segmentWatch_keeps : Keeps x s (segmentWatch s) := (evalReturnLow_keeps s).trans (pitWatch_keeps _)

theorem refindSegment_keeps : Keeps x s (refindSegment s) := by
  unfold refindSegment
  split
  · exact Keeps.refl s
  · dsimp only
    have found : ∀ (b : Bool) (id : Nat) (c : CircState), c.rate1 = s.circ.rate1 → c.rate2 = s.circ.rate2 →
        Keeps x s (if b = true then occurNat srcProgrammeEnd id (s.setCirc c) else s.setCirc c) := fun b id c h h' =>
      Keeps.ite ((Keeps.circSame s c h h').trans (Keeps.occurNat _ _ _)) (Keeps.circSame s c h h')
    refine Keeps.trans ?_ (segmentWatch_keeps _)
    exact Keeps.ite (found _ _ _ (by rfl) (by rfl)) ((found _ _ _ (by rfl) (by rfl)).trans (Keeps.occurNat _ _ _))

theorem stepChain_keeps (n : Nat) : ∀ s, Keeps x s (stepChain n s) := by
  induction n with
  | zero => exact Keeps.refl
  | succ n ih =>
    intro s
    unfold stepChain
    split
    · refine Keeps.ite (Keeps.ite (Keeps.ite (Keeps.refl s) ?_) ?_) (Keeps.refl s)
      · exact (Keeps.circSame s _ (by rfl) (by rfl)).trans (Keeps.occurNat _ _ _)
      · exact ((Keeps.circSame s _ (by rfl) (by rfl)).trans (Keeps.occurNat _ _ _)).trans (ih _)
    · exact Keeps.refl s

theorem circAdvance_keeps (a : Nat) : Keeps x s (circAdvance a s) :=
  ((adjustPit_keeps s _).trans (stepChain_keeps _ _)).trans (segmentWatch_keeps _)

theorem pressureSample_keeps (v : Nat) : Keeps x s (pressureSample v s) := by
  unfold pressureSample
  split
  · exact Keeps.refl s
  · have r := fun b d => Keeps.setCondition (x := x) s srcPressureHold b d (by decide) (by decide)
    exact Keeps.ite ((r _ _).trans (holdStart_keeps _)) (r _ _)

theorem waterSample_keeps (d : Nat) : Keeps x s (waterSample d s) :=
  Keeps.ite (Keeps.refl s) (pitAdjustment_keeps s _)

end

/-! ## The depth unit -/

section
variable {x : Part → Prop} (s : State)

/-- The used bit depth that is recomputed is within the hole (R48). -/
theorem recomputeBits_bit : BitInHole (recomputeBits s) := by
  intro u h
  obtain ⟨r, -, rfl⟩ := Option.map_eq_some_iff.1 h
  exact Nat.min_le_right _ _

theorem recomputeBits_keeps : Keeps x s (recomputeBits s) :=
  Keeps.depth s _ (fun _ => Nat.le_refl _) (fun _ => recomputeBits_bit s) (fun _ => rfl)
    fun _ _ r => ⟨r.activity, r.candidate, r.dwell⟩

theorem recomputeTop_keeps : Keeps x s (recomputeTop s) := by
  unfold recomputeTop
  split
  · exact (Keeps.depthSame s _ (by rfl) (by rfl) (by rfl) (by rfl) (by rfl) (by rfl)).trans (recomputeBits_keeps _)
  · exact Keeps.refl s

theorem slipsNotice_keeps : Keeps x s (slipsNotice s) := by
  have view : ∀ v, Keeps x s (s.setDepth { s.depth with slipsView := v }) := fun v =>
    Keeps.depthSame s _ rfl rfl rfl rfl rfl rfl
  unfold slipsNotice
  dsimp only
  split
  · exact Keeps.refl s
  · split
    · exact ((view _).trans (recomputeTop_keeps _)).trans (Keeps.depthSame _ _ rfl rfl rfl rfl rfl rfl)
    · exact ((view _).trans (Keeps.depthSame _ _ (by rfl) (by rfl) (by rfl) (by rfl) (by rfl) (by rfl))).trans (recomputeTop_keeps _)
    · exact view _

theorem recomputeLoad_keeps : Keeps x s (recomputeLoad s) :=
  (Keeps.depthSame s _ (by rfl) (by rfl) (by rfl) (by rfl) (by rfl) (by rfl)).trans
    (Keeps.setCondition _ _ _ _ (by decide) (by decide))

theorem recomputeWeight_keeps : Keeps x s (recomputeWeight s) :=
  (Keeps.depthSame s _ (by rfl) (by rfl) (by rfl) (by rfl) (by rfl) (by rfl)).trans (recomputeLoad_keeps _)

/-- In BYPASS the activity can become UNTRACKED only. -/
theorem setActivity_keeps (a : Activity) (h : ¬x .mode → s.line.mode = .bypass → DepthRest s → a = .untracked) :
    Keeps x s (setActivity a s) :=
  Keeps.ite (Keeps.refl s) ((Keeps.depth s { s.depth with activity := a } (fun _ => Nat.le_refl _) (fun b => b) (fun _ => rfl)
    fun hx b r => ⟨h hx b r, r.candidate, r.dwell⟩).trans (evalNoFlow_keeps _))

theorem setCandidate_keeps (a : Activity) (b : Option Nat)
    (h : ¬x .mode → s.line.mode = .bypass → DepthRest s → a = .untracked ∧ b = none) : Keeps x s (setCandidate a b s) :=
  Keeps.depth s _ (fun _ => Nat.le_refl _) (fun b => b) (fun _ => rfl) fun hx m r => ⟨r.activity, h hx m r⟩

theorem activityCandidate_bypass (b : s.line.mode = .bypass) : activityCandidate s = .untracked := by
  simp [activityCandidate, b]

/-- The activity candidate recomputed (R57 to R59). -/
theorem recomputeCandidate_keeps : Keeps x s (recomputeCandidate s) := by
  have none := activityCandidate_bypass s
  unfold recomputeCandidate takeCandidate
  have at_once : Keeps x s (setActivity (activityCandidate s) (setCandidate (activityCandidate s) Option.none s)) :=
    (setCandidate_keeps s _ _ fun _ b _ => ⟨none b, rfl⟩).trans (setActivity_keeps _ _ fun _ b _ => none b)
  split
  · exact at_once
  · next h =>
    refine Keeps.ite (Keeps.ite at_once (setCandidate_keeps s _ _ fun _ b _ => ?_)) (Keeps.refl s)
    rw [none b] at h
    exact absurd (.inl rfl) h

theorem dwellReached_start {s : State} (h : dwellReached s = true) : s.depth.dwellStart ≠ none := by
  intro e
  simp [dwellReached, e] at h

theorem expireDwell_keeps : Keeps x s (expireDwell s) := by
  unfold expireDwell
  split
  · next h =>
    have never : DepthRest s → False := fun r => dwellReached_start h r.dwell
    exact (setCandidate_keeps s _ _ fun _ _ r => (never r).elim).trans
      (setActivity_keeps _ _ fun _ _ r => r.candidate)
  · exact Keeps.refl s

theorem setConflict_keeps (b : Bool) : Keeps x s (setConflict b s) := Keeps.depthSame s _ rfl rfl rfl rfl rfl rfl

theorem findConflict_keeps (d : Nat) : Keeps x s (findConflict d s) :=
  Keeps.ite (Keeps.refl s) ((Keeps.occurNat s _ _).trans (setConflict_keeps _ _))

/-- A hole advance taken, the raw bit depth lying below the hole (R50). -/
theorem takeAdvance_keeps (raw d : Nat) (h : s.depth.hole ≤ raw) : Keeps x s (takeAdvance raw d s) :=
  (((Keeps.depth s { s.depth with hole := raw, conflict := false } (fun _ => h) (fun b u e => (b u e).trans h)
    (fun _ => rfl) fun _ _ r => ⟨r.activity, r.candidate, r.dwell⟩).trans (recomputeBits_keeps _)).trans
    (intervalAdvance_keeps _ _ _ _)).trans (circAdvance_keeps _ _)

/-- A hole advance evaluated (R50, R51). -/
theorem evalAdvance_keeps : Keeps x s (evalAdvance s) := by
  unfold evalAdvance
  split
  · split
    · exact setConflict_keeps s _
    · exact Keeps.ite (takeAdvance_keeps s _ _ (by omega)) (findConflict_keeps s _)
  · exact Keeps.refl s

/-- A string change (R47). -/
theorem stringChange_keeps : Keeps x s (stringChange s) :=
  (((recomputeBits_keeps s).trans (evalAdvance_keeps _)).trans (recomputeWeight_keeps _)).trans
    (recomputeCandidate_keeps _)

theorem moveTop_keeps (d : Int) : Keeps x s (moveTop d s) := by
  unfold moveTop
  split
  · exact Keeps.depthSame s _ rfl rfl rfl rfl rfl rfl
  · exact Keeps.refl s

theorem rodMoveNotice_keeps (d : Int) : Keeps x s (rodMoveNotice d s) :=
  ((Keeps.depthSame s _ (by rfl) (by rfl) (by rfl) (by rfl) (by rfl) (by rfl)).trans (moveTop_keeps _ _)).trans
    (stringChange_keeps _)

theorem commitNotice_keeps (t : Option Int) : Keeps x s (commitNotice t s) := by
  unfold commitNotice
  split
  · exact (Keeps.depthSame s _ (by rfl) (by rfl) (by rfl) (by rfl) (by rfl) (by rfl)).trans (stringChange_keeps _)
  · exact stringChange_keeps s

theorem depthSees_keeps : Keeps x s (depthSees s) :=
  ((slipsNotice_keeps s).trans (recomputeTop_keeps _)).trans (recomputeWeight_keeps _)

theorem blockHeightSample_keeps : Keeps x s (blockHeightSample s) :=
  (((depthSees_keeps s).trans (recomputeBits_keeps _)).trans (evalAdvance_keeps _)).trans
    (recomputeCandidate_keeps _)

theorem depthSample_keeps : Keeps x s (depthSample s) := (depthSees_keeps s).trans (recomputeCandidate_keeps _)

theorem depthSettings_keeps : Keeps x s (depthSettings s) :=
  ((((recomputeTop_keeps s).trans (recomputeBits_keeps _)).trans (recomputeWeight_keeps _)).trans
    (recomputeCandidate_keeps _)).trans (expireDwell_keeps _)

end

end Sys2Proof.Machine

/-! # What rods, channels and the line interface keep -/

namespace Sys2Proof.Machine

/-! ## Writing the line interface, and admissions -/

section
variable {x : Part → Prop} {s t : State}

theorem Waits.line {l : LineState} (r : l.records = s.line.records) (d : l.statusDue = s.line.statusDue) :
    Waits s (s.setLine l) where
  grows := by rw [State.setLine_line, r]
  rods := by
    unfold OneFrame RodHeld recordRoom
    rw [State.setLine_line, State.setLine_rod, r]
    exact fun h k => ⟨h, k, List.prefix_refl _⟩
  ticket := fun _ => id
  strata := id
  pending := fun _ => id
  due := by intro c h; rw [State.setLine_line, d]; exact h

/-- Writing the line interface. -/
theorem Keeps.line (l : LineState) (fits : Fits s → Fits (s.setLine l))
    (links : ¬x .links → l.fieldLink = s.line.fieldLink ∧ l.cabLink = s.line.cabLink)
    (reset : l.resetHeld = s.line.resetHeld ∧ l.awaitingReset = s.line.awaitingReset)
    (mode : ¬x .mode → l.mode = s.line.mode ∨ (s.line.mode = .govern ∧ l.mode = .observe))
    (out : s.line.bypassOut = bypassAsserted s → l.bypassOut = bypassAsserted (s.setLine l))
    (rest : ¬x .mode → s.line.mode = .bypass → AtRest s (s.setLine l))
    (waits : ¬x .waits → Waits s (s.setLine l)) : Keeps x s (s.setLine l) :=
  { Keeps.refl s with
    links := links, reset := reset, mode := mode, out := out, rest := rest, fits := fits, waits := waits
    conds := fun _ _ _ _ => rfl
    job := fun _ => ⟨rfl, rfl, rfl, rfl, rfl, rfl, rfl, rfl⟩
    rodLaw := fun _ => RodLaw.same rfl rfl rfl
    sums := fun _ _ => SumsLaw.same rfl rfl rfl rfl rfl rfl }

/-- Writing what neither the mode nor the record queue depends on. -/
theorem Keeps.lineSame (l : LineState) (fits : Fits s → Fits (s.setLine l))
    (links : l.fieldLink = s.line.fieldLink ∧ l.cabLink = s.line.cabLink)
    (reset : l.resetHeld = s.line.resetHeld ∧ l.awaitingReset = s.line.awaitingReset)
    (mode : l.mode = s.line.mode ∧ l.bypassOut = s.line.bypassOut)
    (rest : s.line.mode = .bypass → LineRest s → l.forward = [] ∧ l.downstream = [] ∧ l.injections = [])
    (waits : l.records = s.line.records ∧ l.statusDue = s.line.statusDue) : Keeps x s (s.setLine l) :=
  Keeps.line l fits (fun _ => links) reset (fun _ => .inl mode.1)
    (fun h => by
      have e : bypassAsserted (s.setLine l) = bypassAsserted s := by
        unfold bypassAsserted inReset
        rw [State.setLine_line, mode.1, reset.1, reset.2]
      rw [e, mode.2, h])
    (fun _ b =>
      { circ := .same rfl, depth := .same rfl, gov := .same rfl
        line := fun r => by
          obtain ⟨h1, h2, h3⟩ := rest b r
          exact ⟨h1, h2, h3⟩ })
    fun _ => Waits.line waits.1 waits.2

theorem Keeps.judged (s : State) (l : List Producer) : Keeps x s (s.setLine { s.line with judged := l }) :=
  Keeps.lineSame _ (fun f => { f with }) ⟨rfl, rfl⟩ ⟨rfl, rfl⟩ ⟨rfl, rfl⟩
    (fun _ r => ⟨r.forward, r.downstream, r.injections⟩) ⟨rfl, rfl⟩

/-- An admission moves records, and is exempt from leaving them where they wait. -/
theorem Admits.keeps (h : Admits s t) (hx : x .waits) : Keeps x s t where
  pending := h.pending
  noticeOrder := h.noticeOrder
  links := fun _ => by rw [h.line]; exact ⟨rfl, rfl⟩
  reset := by rw [h.line]; exact ⟨rfl, rfl⟩
  mode := fun _ => .inl h.mode
  out := fun m => by unfold bypassAsserted inReset at *; rw [h.line]; exact m
  rest := fun _ b => .quiet (by rw [h.line]) (by rw [h.line]) (h.quiet (by rw [b]; decide)) h.circ h.depth h.gov
  fits := fun f =>
    { forward := by rw [h.line]; exact f.forward
      downstream := by rw [h.line]; exact f.downstream
      requests := by rw [h.line]; exact f.requests
      injections := h.size f.injections
      forwardedRun := by rw [h.line]; exact f.forwardedRun
      records := h.records f.records
      serial := h.serial f.serial
      highWater := h.highWater f.records f.highWater
      rodTable := by rw [h.rod]; exact f.rodTable
      string := by rw [h.rod]; exact f.string
      loadCount := by rw [h.rod]; exact f.loadCount
      rodOut := h.out.length_le.trans f.rodOut
      rodRecords := fun r m => f.rodRecords r (h.out.subset m)
      ticket := fun r m => by
        rcases h.ticket with a | a <;> rw [a] at m
        · exact f.ticket r m
        · cases m
      lagQueue := h.queue.length_le.trans f.lagQueue
      lagHold := h.hold.length_le.trans f.lagHold
      counts := h.counts f.counts }
  waits := absurd hx
  channels := fun _ => h.channels
  conds := fun _ _ q _ => h.conds q
  tables := fun _ => h.tables
  job := fun _ =>
    { job := by rw [h.bill]
      ticketOpen := by rw [h.bill]
      deferred := by rw [h.bill]
      jobNumber := by rw [h.bill]
      ticketNumber := by rw [h.bill]
      ending := by
        rcases h.ending with a | a <;> rw [a]
        exact Option.isSome_map
      interval := by rw [h.interval]
      clock := by rw [h.depth] }
  rodLaw := fun _ => RodLaw.same (by rw [h.rod]) (by rw [h.rod]) (by rw [h.rod])
  sums := fun _ _ => SumsLaw.same (by rw [h.rod]) (by rw [h.rod]) (by rw [h.rod]) (by rw [h.rod]) (by rw [h.rod])
    (by unfold activeCopy; rw [h.tables])
  hole := fun _ => by rw [h.depth]
  bit := fun b => by unfold BitInHole; rw [h.depth]; exact b

end

/-! ## The rod records of the table -/

/-- A record found bears the tag it was found by. -/
theorem findRod_tag {s : State} {tag : Nat} {r : Rod} (h : findRod s tag = some r) : r.tag = tag := by
  simpa using List.find?_some h

theorem findRod_mem {s : State} {tag : Nat} {r : Rod} (h : findRod s tag = some r) : r ∈ s.rod.table :=
  List.mem_of_find?_eq_some h

theorem find?_map_tag {f : Rod → Rod} (hf : ∀ r, (f r).tag = r.tag) (n : Nat) (l : List Rod) :
    (l.map f).find? (fun r => r.tag == n) = (l.find? fun r => r.tag == n).map f := by
  induction l with
  | nil => rfl
  | cons a rest ih => simp only [List.map_cons, List.find?_cons, hf]; split <;> simp [ih]

/-- The record of a tag after the records of a tag have been replaced. -/
theorem findRod_updateRod {tag : Nat} {f : Rod → Rod} (s : State) (hf : ∀ r, r.tag = tag → (f r).tag = tag) (n : Nat) :
    findRod (updateRod tag f s) n = if n = tag then (findRod s n).map f else findRod s n := by
  have keepsTag : ∀ r : Rod, (if r.tag = tag then f r else r).tag = r.tag := fun r => by
    split
    · next h => rw [hf r h, h]
    · rfl
  show (s.rod.table.map fun r => if r.tag = tag then f r else r).find? _ = _
  rw [find?_map_tag keepsTag]
  show (findRod s n).map _ = _
  cases h : findRod s n with
  | none => simp
  | some r => simp only [Option.map_some, findRod_tag h]; split <;> rfl

theorem updateRod_tags {tag : Nat} {f : Rod → Rod} (s : State) (hf : ∀ r, r.tag = tag → (f r).tag = tag) :
    (updateRod tag f s).rod.table.map (·.tag) = s.rod.table.map (·.tag) := by
  show (s.rod.table.map _).map _ = _
  rw [List.map_map]
  refine List.map_congr_left fun r _ => ?_
  simp only [Function.comp]
  split
  · next h => rw [hf r h, h]
  · rfl

theorem findRod_of_mem {s : State} (tags : (s.rod.table.map (·.tag)).Nodup) {r : Rod} (h : r ∈ s.rod.table) :
    findRod s r.tag = some r := by
  obtain ⟨y, hy⟩ : ∃ y, findRod s r.tag = some y := Option.isSome_iff_exists.1 (List.find?_isSome.2 ⟨r, h, by simp⟩)
  rw [hy, List.inj_on_of_nodup_map tags (findRod_mem hy) h (findRod_tag hy)]

/-- Where no two records share a tag, a record with a tag and a place is the one found. -/
theorem exists_place_iff {s : State} (tags : (s.rod.table.map (·.tag)).Nodup) (n : Nat) (p : RodPlace) :
    (∃ r ∈ s.rod.table, r.tag = n ∧ r.place = p) ↔ ∃ r, findRod s n = some r ∧ r.place = p := by
  constructor
  · rintro ⟨r, m, rfl, h⟩
    exact ⟨r, findRod_of_mem tags m, h⟩
  · rintro ⟨r, h, k⟩
    exact ⟨r, findRod_mem h, findRod_tag h, k⟩

/-- The rod law said by the records found. -/
theorem rodLaw_iff (s : State) : RodLaw s ↔
    (s.rod.table.map (·.tag)).Nodup ∧ s.rod.string.Nodup ∧
      (∀ n, n ∈ s.rod.string ↔ ∃ r, findRod s n = some r ∧ r.place = .string) ∧
      ∀ n, s.rod.candidate = some n → ∃ r, findRod s n = some r ∧ r.place = .rack := by
  constructor
  · rintro ⟨a, b, c, d⟩
    exact ⟨a, b, fun n => (c n).trans (exists_place_iff a n _), fun n h => (exists_place_iff a n _).1 (d n h)⟩
  · rintro ⟨a, b, c, d⟩
    exact ⟨a, b, fun n => (c n).trans (exists_place_iff a n _).symm, fun n h => (exists_place_iff a n _).2 (d n h)⟩

/-! ## The candidate and validity -/

section
variable {x : Part → Prop} (s : State)

theorem setRodCandidate_keeps (c : Option Nat)
    (h : ¬x .rods → ∀ n, c = some n → ∃ r, findRod s n = some r ∧ r.place = .rack) :
    Keeps x s (setRodCandidate c s) :=
  Keeps.rod s _ rfl id id id
    (fun hx l => by
      obtain ⟨a, b, d, -⟩ := (rodLaw_iff s).1 l
      exact (rodLaw_iff _).2 ⟨a, b, d, h hx⟩)
    fun _ _ => SumsLaw.same rfl rfl rfl rfl rfl rfl

theorem clearCandidate_keeps : Keeps x s (setRodCandidate none s) :=
  setRodCandidate_keeps s none fun _ _ h => nomatch h

theorem rodUnavailable_keeps (t c : Nat) : Keeps x s (rodUnavailable t c s) :=
  (clearCandidate_keeps s).trans (Keeps.occurNat _ _ _)

theorem tagSample_keeps (t : Nat) : Keeps x s (tagSample t s) := by
  unfold tagSample
  split
  · exact Keeps.refl s
  · split
    · exact (clearCandidate_keeps s).trans (Keeps.occurNat _ _ _)
    · next r e =>
      split
      · next p =>
        refine Keeps.ite (rodUnavailable_keeps s _ _) (Keeps.ite (rodUnavailable_keeps s _ _) ?_)
        exact setRodCandidate_keeps s _ fun _ n h => ⟨r, by cases h; exact e, p⟩
      · exact Keeps.ite (Keeps.refl s) (rodUnavailable_keeps s _ _)
      · exact rodUnavailable_keeps s _ _
      · exact rodUnavailable_keeps s _ _

/-- The line mode becomes another; the output follows it and STATUS is due (R13). -/
theorem setMode_keeps (m : LineMode) (h : x .mode ∨ (s.line.mode = .govern ∧ m = .observe)) :
    Keeps x s (setMode m s) := by
  refine Keeps.trans (t := driveBypass (s.setLine { s.line with mode := m })) ?_ (Keeps.statusDue _ _)
  refine Keeps.line _ (fun f => { f with }) (fun _ => ⟨rfl, rfl⟩) ⟨rfl, rfl⟩ (fun hx => ?_) (fun _ => rfl) (fun hx b => ?_)
    fun _ => Waits.line rfl rfl
  · exact .inr (h.resolve_left hx)
  · have := (h.resolve_left hx).1
    rw [b] at this
    cases this

theorem changeInLine_keeps (m : LineMode) (h : x .mode ∨ (s.line.mode = .govern ∧ m = .observe)) :
    Keeps x s (changeInLine m s) := (setMode_keeps s m h).trans (recomputeCandidate_keeps _)

theorem governDrop_keeps : Keeps x s (governDrop s) := by
  unfold governDrop
  split
  · next h => exact (changeInLine_keeps s _ (.inr ⟨h, rfl⟩)).trans (Keeps.occurNat _ _ _)
  · exact Keeps.refl s

theorem invalidate_keeps : Keeps x s (invalidate s) :=
  Keeps.ite (((Keeps.rodSame s _ (by rfl) (by rfl) (by rfl) (by rfl) (by rfl) (by rfl) (by rfl) (by rfl)).trans
    (governDrop_keeps _)).trans (stringChange_keeps _)) (Keeps.refl s)

theorem untrackedMakeup_keeps (c t : Nat) : Keeps x s (untrackedMakeup c t s) :=
  (((Keeps.occurNat s _ _).trans (clearCandidate_keeps _)).trans (invalidate_keeps _)).trans
    (Keeps.setCondition _ _ _ _ (by decide) (by decide))

/-! ## Fatigue and the sums -/

theorem evalFatigue_keeps : Keeps x s (evalFatigue s) := Keeps.setCondition s _ _ _ (by decide) (by decide)

theorem recomputeFatigue_keeps : Keeps x s (recomputeFatigue s) :=
  (Keeps.rodSame s _ (by rfl) (by rfl) (by rfl) (by rfl) (by rfl) (by rfl) (by rfl) (by rfl)).trans (evalFatigue_keeps _)

theorem fatigueSample_keeps (torque dt : Nat) : Keeps x s (fatigueSample torque dt s) := by
  unfold fatigueSample
  split
  · exact Keeps.ite (Keeps.refl s) ((Keeps.rodSame s _ (by rfl) (by rfl) (by rfl) (by rfl) (by rfl) (by rfl) (by rfl)
      (by rfl)).trans (evalFatigue_keeps _))
  · exact Keeps.refl s

/-- The sums recomputed are those over the string (R74). -/
theorem recomputeSums_sums : SumsLaw (recomputeSums s) := ⟨rfl, rfl, rfl⟩

theorem recomputeSums_keeps : Keeps x s (recomputeSums s) :=
  Keeps.rod s _ rfl id id id (fun _ => RodLaw.same rfl rfl rfl) fun _ _ _ => recomputeSums_sums s

/-- Writing the rod records, exempt from the rod laws. -/
theorem updateRod_keeps (tag : Nat) (f : Rod → Rod) (hx : x .rods) : Keeps x s (updateRod tag f s) :=
  Keeps.rod s _ rfl (fun h => by simpa using h) id id (absurd hx) (absurd hx)

end

/-! ## Pushing and popping in the unit (R78, R81) -/

section

/-- A rod's record after a push with a torque (R78, R79). -/
def pushedRod (s : State) (torque : Nat) (r : Rod) : Rod :=
  { enterString s.rod.fatigueClock r with
    inspect := r.inspect || !torqueInWindow (rodClass s r.cls) torque }

/-- A make-up torque outside the window writes the rod table and nothing else of the rod unit (R79). -/
theorem judgeTorque_rod (r : Rod) (torque : Nat) (s : State) :
    (judgeTorque r torque s).rod = if torqueInWindow (rodClass s r.cls) torque then s.rod
      else (updateRod r.tag (fun x => { x with inspect := true }) s).rod := by
  unfold judgeTorque
  split
  · rfl
  · exact (occurNat_eventOnly _ _ _).rod

/-- A recomputation of the string fatigue limit writes that and nothing else of the rod unit (R85). -/
theorem recomputeFatigue_rod (s : State) :
    (recomputeFatigue s).rod = { s.rod with fatigueLimit := (limitingRod s).map (·.2) } :=
  (setCondition_eventOnly _ _ _ _).rod

theorem judgeTorque_string (r : Rod) (torque : Nat) (s : State) :
    (judgeTorque r torque s).rod.string = s.rod.string := by rw [judgeTorque_rod]; split <;> rfl

theorem judgeTorque_sums (r : Rod) (torque : Nat) (s : State) :
    (judgeTorque r torque s).rod.length = s.rod.length ∧ (judgeTorque r torque s).rod.weight = s.rod.weight ∧
      (judgeTorque r torque s).rod.steel = s.rod.steel := by
  rw [judgeTorque_rod]; split <;> exact ⟨rfl, rfl, rfl⟩

theorem judgeTorque_tags (r : Rod) (torque : Nat) (s : State) :
    (judgeTorque r torque s).rod.table.map (·.tag) = s.rod.table.map (·.tag) := by
  rw [judgeTorque_rod]
  split
  · rfl
  · exact updateRod_tags s fun _ h => h

/-- Rod records are found in the rod unit alone. -/
theorem findRod_congr {s t : State} (h : t.rod.table = s.rod.table) (n : Nat) : findRod t n = findRod s n := by
  unfold findRod; rw [h]

/-- What a make-up torque makes of the record of a rod (R79). -/
theorem findRod_judgeTorque (r : Rod) (torque : Nat) (s : State) (n : Nat) :
    findRod (judgeTorque r torque s) n =
      if n = r.tag then
        (findRod s n).map fun x => { x with inspect := x.inspect || !torqueInWindow (rodClass s r.cls) torque }
      else findRod s n := by
  by_cases h : torqueInWindow (rodClass s r.cls) torque = true
  · rw [findRod_congr (s := s) (by rw [judgeTorque_rod, if_pos h])]
    simp [h]
  · have e : findRod (judgeTorque r torque s) n = findRod (updateRod r.tag (fun x => { x with inspect := true }) s) n :=
      findRod_congr (by rw [judgeTorque_rod, if_neg h]) n
    rw [e, findRod_updateRod (tag := r.tag) (f := fun x => { x with inspect := true }) s (fun _ h => h)]
    simp [h]

/-- A push before the fatigue limit is recomputed and the candidate cleared (R78). -/
def stacked (r : Rod) (torque : Nat) (s : State) : State :=
  judgeTorque r torque (updateRod r.tag (enterString s.rod.fatigueClock) (stackTag r.tag s))

theorem pushInUnit_rod (r : Rod) (torque : Nat) (s : State) :
    (pushInUnit r torque s).rod =
      { (addSums r (stacked r torque s)).rod with
        fatigueLimit := (limitingRod (addSums r (stacked r torque s))).map (·.2), candidate := none } :=
  congrArg (fun x : RodState => { x with candidate := none }) (recomputeFatigue_rod (addSums r (stacked r torque s)))

theorem pushInUnit_string (r : Rod) (torque : Nat) (s : State) :
    (pushInUnit r torque s).rod.string = s.rod.string ++ [r.tag] := by
  rw [pushInUnit_rod]
  exact judgeTorque_string _ _ _

theorem pushInUnit_candidate (r : Rod) (torque : Nat) (s : State) : (pushInUnit r torque s).rod.candidate = none := by
  rw [pushInUnit_rod]

theorem pushInUnit_tags (r : Rod) (torque : Nat) (s : State) :
    (pushInUnit r torque s).rod.table.map (·.tag) = s.rod.table.map (·.tag) := by
  rw [pushInUnit_rod]
  exact (judgeTorque_tags _ _ _).trans (updateRod_tags (stackTag r.tag s) fun _ h => h)

theorem addSums_tables (r : Rod) (s : State) : (addSums r s).tables = s.tables := rfl

theorem setRodCandidate_tables (c : Option Nat) (s : State) : (setRodCandidate c s).tables = s.tables := rfl

theorem pushInUnit_tables (r : Rod) (torque : Nat) (s : State) : (pushInUnit r torque s).tables = s.tables := by
  have pushed : pushInUnit r torque s = setRodCandidate none (recomputeFatigue (addSums r (stacked r torque s))) := rfl
  have judged : (stacked r torque s).tables = s.tables := (judgeTorque_quiet _ r torque).tables
  rw [pushed, setRodCandidate_tables, (recomputeFatigue_quiet (addSums r (stacked r torque s))).tables, addSums_tables,
    judged]

/-- A push adds the rod's terms to the sums (R74). -/
theorem pushInUnit_sums (r : Rod) (torque : Nat) (s : State) :
    (pushInUnit r torque s).rod.length = s.rod.length + r.length ∧
      (pushInUnit r torque s).rod.weight = s.rod.weight + weightTerm s r ∧
      (pushInUnit r torque s).rod.steel = s.rod.steel + steelTerm s r := by
  rw [pushInUnit_rod]
  obtain ⟨l, w, v⟩ : (stacked r torque s).rod.length = s.rod.length ∧ (stacked r torque s).rod.weight = s.rod.weight ∧
      (stacked r torque s).rod.steel = s.rod.steel := judgeTorque_sums _ _ _
  have cls : rodClass (stacked r torque s) = rodClass s := rodClass_congr (by
    unfold activeCopy stacked
    rw [(judgeTorque_quiet _ _ _).tables]
    rfl)
  refine ⟨?_, ?_, ?_⟩ <;> simp only [addSums, State.setRod_rod, weightTerm, steelTerm, l, w, v, cls]

/-- The record of the pushed rod, and every other as it was (R78, R79). -/
theorem findRod_pushInUnit {r : Rod} {s : State} (known : findRod s r.tag = some r) (torque : Nat) (n : Nat) :
    findRod (pushInUnit r torque s) n = if n = r.tag then some (pushedRod s torque r) else findRod s n := by
  have e : findRod (pushInUnit r torque s) n = findRod (stacked r torque s) n :=
    findRod_congr (by rw [pushInUnit_rod]; rfl) n
  rw [e, stacked, findRod_judgeTorque,
    findRod_updateRod (tag := r.tag) (f := enterString s.rod.fatigueClock) (stackTag r.tag s) fun _ h => h]
  by_cases h : n = r.tag
  · subst h
    have k : findRod (stackTag r.tag s) r.tag = some r := known
    simp only [if_true, k, Option.map_some]
    rfl
  · simp only [if_neg h]
    rfl

end

end Sys2Proof.Machine

/-! # What pushes, pops and requests on rods keep -/

namespace Sys2Proof.Machine

/-! ## Popping in the unit (R81) -/

/-- A pop before the sums (R81). -/
def unstacked (r x : Rod) (s : State) : State :=
  retireOccurrence x (updateRod r.tag (fun _ => x) (unstackTag s))

theorem retireOccurrence_eventOnly (r : Rod) (s : State) : EventOnly s (retireOccurrence r s) :=
  EventOnly.ite (occurNat_eventOnly _ _ _) (EventOnly.refl s)

theorem unstacked_rod (r x : Rod) (s : State) :
    (unstacked r x s).rod = (updateRod r.tag (fun _ => x) (unstackTag s)).rod :=
  (retireOccurrence_eventOnly _ _).rod

theorem unstacked_tables (r x : Rod) (s : State) : (unstacked r x s).tables = s.tables :=
  (retireOccurrence_eventOnly x (updateRod r.tag (fun _ => x) (unstackTag s))).tables

theorem popInUnit_rod (r x : Rod) (s : State) :
    (popInUnit r x s).rod =
      { (subSums r (unstacked r x s)).rod with
        fatigueLimit := (limitingRod (subSums r (unstacked r x s))).map (·.2), candidate := none } :=
  congrArg (fun y : RodState => { y with candidate := none }) (recomputeFatigue_rod (subSums r (unstacked r x s)))

theorem popInUnit_string (r x : Rod) (s : State) : (popInUnit r x s).rod.string = s.rod.string.dropLast := by
  rw [popInUnit_rod]
  exact congrArg RodState.string (unstacked_rod r x s)

theorem popInUnit_candidate (r x : Rod) (s : State) : (popInUnit r x s).rod.candidate = none := by rw [popInUnit_rod]

theorem popInUnit_tags {r x : Rod} (s : State) (h : x.tag = r.tag) :
    (popInUnit r x s).rod.table.map (·.tag) = s.rod.table.map (·.tag) := by
  rw [popInUnit_rod]
  refine Eq.trans ?_ (updateRod_tags (tag := r.tag) (f := fun _ => x) (unstackTag s) fun _ _ => h)
  exact congrArg (fun y : RodState => y.table.map (·.tag)) (unstacked_rod r x s)

theorem popInUnit_tables (r x : Rod) (s : State) : (popInUnit r x s).tables = s.tables :=
  (recomputeFatigue_quiet (subSums r (unstacked r x s))).tables.trans (unstacked_tables r x s)

/-- A pop takes the rod's terms from the sums (R74). -/
theorem popInUnit_sums (r x : Rod) (s : State) :
    (popInUnit r x s).rod.length = s.rod.length - r.length ∧
      (popInUnit r x s).rod.weight = s.rod.weight - weightTerm s r ∧
      (popInUnit r x s).rod.steel = s.rod.steel - steelTerm s r := by
  rw [popInUnit_rod]
  have cls : rodClass (unstacked r x s) = rodClass s :=
    rodClass_congr (by unfold activeCopy; rw [unstacked_tables])
  have e := unstacked_rod r x s
  refine ⟨?_, ?_, ?_⟩ <;> simp only [subSums, State.setRod_rod, weightTerm, steelTerm, e, cls] <;> rfl

/-- The record of the popped rod, and every other as it was (R81). -/
theorem findRod_popInUnit {r x : Rod} {s : State} (h : x.tag = r.tag) (known : findRod s r.tag = some r) (n : Nat) :
    findRod (popInUnit r x s) n = if n = r.tag then some x else findRod s n := by
  have e : findRod (popInUnit r x s) n = findRod (updateRod r.tag (fun _ => x) (unstackTag s)) n :=
    findRod_congr (by rw [popInUnit_rod, ← unstacked_rod]; rfl) n
  rw [e, findRod_updateRod (tag := r.tag) (f := fun _ => x) (unstackTag s) fun _ _ => h]
  by_cases k : n = r.tag
  · subst k
    have u : findRod (unstackTag s) r.tag = some r := known
    simp [u]
  · rw [if_neg k, if_neg k]; rfl

/-! ## The rod laws over pushes and pops -/

/-- A list of tags none of which is one whose record alone has changed reads the same records. -/
theorem filterMap_findRod_congr {s t : State} {l : List Nat} {tag : Nat} (h : tag ∉ l)
    (e : ∀ n, n ≠ tag → findRod t n = findRod s n) : l.filterMap (findRod t) = l.filterMap (findRod s) :=
  List.filterMap_congr fun n m => e n (by rintro rfl; exact h m)

section
variable {s : State} {r : Rod}

/-- A rod in RACK is not in the string. -/
theorem RodLaw.rack_not_mem (l : RodLaw s) {tag : Nat} (known : findRod s tag = some r) (place : r.place = .rack) :
    tag ∉ s.rod.string := by
  intro m
  obtain ⟨-, -, c, -⟩ := (rodLaw_iff s).1 l
  obtain ⟨y, hy, py⟩ := (c tag).1 m
  rw [known] at hy
  cases hy
  rw [place] at py
  cases py

theorem pushInUnit_rodLaw (torque : Nat) (cand : s.rod.candidate = some r.tag) (known : findRod s r.tag = some r)
    (l : RodLaw s) : RodLaw (pushInUnit r torque s) := by
  obtain ⟨a, b, c, d⟩ := (rodLaw_iff s).1 l
  obtain ⟨y, hy, place⟩ := d _ cand
  obtain rfl : r = y := Option.some.inj (known.symm.trans hy)
  have out := l.rack_not_mem known place
  rw [rodLaw_iff, pushInUnit_tags, pushInUnit_string, pushInUnit_candidate]
  refine ⟨a, List.nodup_append.2 ⟨b, List.nodup_singleton _, ?_⟩, fun n => ?_, fun _ h => nomatch h⟩
  · rintro n hn m hm rfl
    exact out (List.mem_singleton.1 hm ▸ hn)
  · rw [findRod_pushInUnit known, List.mem_append, List.mem_singleton]
    by_cases h : n = r.tag
    · rw [if_pos h]
      exact ⟨fun _ => ⟨_, rfl, rfl⟩, fun _ => .inr h⟩
    · rw [if_neg h, c n]
      exact ⟨fun k => k.resolve_right h, .inl⟩

theorem pushInUnit_sumsLaw (torque : Nat) (cand : s.rod.candidate = some r.tag) (known : findRod s r.tag = some r)
    (l : RodLaw s) (m : SumsLaw s) : SumsLaw (pushInUnit r torque s) := by
  obtain ⟨-, -, -, d⟩ := (rodLaw_iff s).1 l
  obtain ⟨y, hy, place⟩ := d _ cand
  obtain rfl : r = y := Option.some.inj (known.symm.trans hy)
  have out := l.rack_not_mem known place
  have rods : stringRods (pushInUnit r torque s) = stringRods s ++ [pushedRod s torque r] := by
    have below : s.rod.string.filterMap (findRod (pushInUnit r torque s)) = s.rod.string.filterMap (findRod s) :=
      filterMap_findRod_congr out fun n h => by rw [findRod_pushInUnit known, if_neg h]
    have top : findRod (pushInUnit r torque s) r.tag = some (pushedRod s torque r) := by
      rw [findRod_pushInUnit known, if_pos rfl]
    unfold stringRods
    rw [pushInUnit_string, List.filterMap_append, below]
    simp [top]
  have cls : rodClass (pushInUnit r torque s) = rodClass s :=
    rodClass_congr (by unfold activeCopy; rw [pushInUnit_tables])
  obtain ⟨h1, h2, h3⟩ := pushInUnit_sums r torque s
  obtain ⟨m1, m2, m3⟩ := m
  constructor <;> rw [rods, List.map_append, List.sum_append]
  · rw [h1, m1]; simp [pushedRod, enterString]
  · rw [h2, m2, cls]; simp [pushedRod, enterString, weightTerm]
  · rw [h3, m3, cls]; simp [pushedRod, enterString, steelTerm]

theorem popInUnit_rodLaw {x : Rod} (h : x.tag = r.tag) (gone : x.place ≠ .string)
    (top : s.rod.string.getLast? = some r.tag) (known : findRod s r.tag = some r) (l : RodLaw s) :
    RodLaw (popInUnit r x s) := by
  obtain ⟨a, b, c, -⟩ := (rodLaw_iff s).1 l
  obtain ⟨below, hb⟩ := List.getLast?_eq_some_iff.1 top
  have out : r.tag ∉ below := by
    rw [hb, List.nodup_append] at b
    intro m
    exact b.2.2 _ m _ (List.mem_singleton.2 rfl) rfl
  rw [rodLaw_iff, popInUnit_tags s h, popInUnit_string, popInUnit_candidate]
  refine ⟨a, b.sublist (List.dropLast_sublist _), fun n => ?_, fun _ h => nomatch h⟩
  rw [findRod_popInUnit h known, hb, List.dropLast_concat]
  by_cases k : n = r.tag
  · rw [if_pos k]
    constructor
    · intro m; exact absurd (k ▸ m) out
    · rintro ⟨y, hy, p⟩
      cases hy
      exact absurd p gone
  · rw [if_neg k, ← c n, hb, List.mem_append, List.mem_singleton]
    exact ⟨.inl, fun m => m.resolve_right k⟩

theorem popInUnit_sumsLaw {x : Rod} (h : x.tag = r.tag) (top : s.rod.string.getLast? = some r.tag)
    (known : findRod s r.tag = some r) (l : RodLaw s) (m : SumsLaw s) : SumsLaw (popInUnit r x s) := by
  obtain ⟨-, b, -, -⟩ := (rodLaw_iff s).1 l
  obtain ⟨below, hb⟩ := List.getLast?_eq_some_iff.1 top
  have out : r.tag ∉ below := by
    rw [hb, List.nodup_append] at b
    intro m
    exact b.2.2 _ m _ (List.mem_singleton.2 rfl) rfl
  have rest : below.filterMap (findRod (popInUnit r x s)) = below.filterMap (findRod s) :=
    filterMap_findRod_congr out fun n k => by rw [findRod_popInUnit h known, if_neg k]
  have rods : stringRods s = stringRods (popInUnit r x s) ++ [r] := by
    unfold stringRods
    rw [popInUnit_string, hb, List.dropLast_concat, List.filterMap_append, rest]
    simp [known]
  have cls : rodClass (popInUnit r x s) = rodClass s :=
    rodClass_congr (by unfold activeCopy; rw [popInUnit_tables])
  obtain ⟨h1, h2, h3⟩ := popInUnit_sums r x s
  obtain ⟨m1, m2, m3⟩ := m
  rw [rods, List.map_append, List.sum_append] at m1 m2 m3
  constructor
  · rw [h1, m1]; simp
  · rw [h2, m2, cls]; simp [weightTerm]
  · rw [h3, m3, cls]; simp [steelTerm]

end

/-! ## ROD records (R23, R87) -/

section
variable {x : Part → Prop} (s : State)

theorem judgeWaits_keeps (n : Nat) : ∀ s, Keeps x s (judgeWaits n s) := by
  induction n with
  | zero => exact Keeps.refl
  | succ n ih =>
    intro s
    unfold judgeWaits
    split
    · exact ((Keeps.judged s _).trans (Keeps.occurNat _ _ _)).trans (ih _)
    · exact Keeps.refl s

theorem judgeFull_keeps : Keeps x s (judgeFull s) := Keeps.ite (judgeWaits_keeps _ s) (Keeps.refl s)

/-- The state with one more ROD record in the out-queue. -/
def appendRod (r : RecordBody) (s : State) : State := s.setRod { s.rod with out := s.rod.out ++ [r] }

/-- A ROD record of one frame that is offered enters, or waits behind those that wait; it withdraws nothing (R23, R87). -/
theorem admitRod_waits (r : RecordBody) (h : r.type = 1 ∧ r.frames.length = 1) :
    Waits s (admitRod (appendRod r s)) := by
  have adm := admitRod_admits (appendRod r s)
  have other : (admitRod (appendRod r s)).bill = s.bill ∧ (admitRod (appendRod r s)).lag = s.lag ∧
      (admitRod (appendRod r s)).event = s.event ∧
      (admitRod (appendRod r s)).line.statusDue = s.line.statusDue := by
    unfold admitRod
    split
    · split <;> exact ⟨rfl, rfl, rfl, rfl⟩
    · exact ⟨rfl, rfl, rfl, rfl⟩
  obtain ⟨hb, hl, he, hd⟩ := other
  refine ⟨adm.grows, fun one held => ?_, by rw [hb]; exact fun _ => id, ?_, fun q => by rw [he]; exact id,
    fun c => by rw [hd]; exact id⟩
  · have one' : OneFrame (admitRod (appendRod r s)) := fun y m => by
      rcases List.mem_append.1 (adm.out.subset m) with k | k
      · exact one y k
      · rw [List.mem_singleton.1 k]; exact h
    refine ⟨one', ?_⟩
    cases e : s.rod.out with
    | nil =>
      refine ⟨?_, List.nil_prefix⟩
      unfold admitRod appendRod
      rw [State.setRod_rod, e]
      dsimp only [List.nil_append]
      split
      · exact fun k => absurd rfl k
      · next k => intro _; rw [h.2] at k; omega
    | cons a rest =>
      have full : recordRoom s = 0 := held (by rw [e]; simp)
      have stay : admitRod (appendRod r s) = appendRod r s := by
        unfold admitRod appendRod
        rw [State.setRod_rod, e]
        dsimp only [List.cons_append]
        rw [if_neg]
        have : a.frames.length = 1 := (one a (by rw [e]; simp)).2
        show ¬a.frames.length ≤ recordRoom s
        omega
      rw [stay]
      refine ⟨fun _ => full, ?_⟩
      show _ <+: s.rod.out ++ [r]
      rw [e]
      exact List.prefix_append _ _
  · intro w
    rw [strata_waiting_congr (congrArg _ hl) (congrArg _ hl)]
    exact w

theorem appendRod_keeps (r : RecordBody) (room : s.rod.out.length < 16) (h : r.type = 1 ∧ r.frames.length = 1)
    (hx : x .waits) : Keeps x s (appendRod r s) :=
  { Keeps.refl s with
    out := id
    rest := fun _ _ => AtRest.same rfl rfl rfl rfl
    fits := fun f =>
      { f with
        rodOut := by show (s.rod.out ++ [r]).length ≤ 16; simp; omega
        rodRecords := fun y m => by
          rcases List.mem_append.1 m with k | k
          · exact f.rodRecords y k
          · rw [List.mem_singleton.1 k]; exact h }
    waits := absurd hx
    conds := fun _ _ _ _ => rfl
    job := fun _ => ⟨rfl, rfl, rfl, rfl, rfl, rfl, rfl, rfl⟩
    rodLaw := fun _ => RodLaw.same rfl rfl rfl
    sums := fun _ _ => SumsLaw.same rfl rfl rfl rfl rfl rfl }

/-- A ROD record of one frame is offered (R87). -/
theorem offerRodRecord_keeps (r : RecordBody) (h : r.type = 1 ∧ r.frames.length = 1) :
    Keeps x s (offerRodRecord r s) := by
  unfold offerRodRecord
  refine Keeps.trans (judgeFull_keeps s) (Keeps.trans ?_ (judgeFull_keeps _))
  split
  · next room =>
    refine Keeps.withWaits ?_ (admitRod_waits _ r h)
    exact (appendRod_keeps _ r room h (.inr rfl)).trans ((admitRod_admits _).keeps (.inr rfl))
  · exact Keeps.occurNat _ _ _

/-! ## Make-up and break-out -/

theorem stackTag_keeps (tag : Nat) (h : s.rod.string.length < 250) (hx : x .rods) : Keeps x s (stackTag tag s) :=
  Keeps.rod s _ rfl id (fun _ => by simp; omega) id (absurd hx) (absurd hx)

theorem judgeTorque_keeps (r : Rod) (torque : Nat) (hx : x .rods) : Keeps x s (judgeTorque r torque s) :=
  Keeps.ite (Keeps.refl s) ((updateRod_keeps s _ _ hx).trans (Keeps.occurNat _ _ _))

theorem addSums_keeps (r : Rod) (hx : x .rods) : Keeps x s (addSums r s) :=
  Keeps.rod s _ rfl id id id (absurd hx) (absurd hx)

theorem subSums_keeps (r : Rod) (hx : x .rods) : Keeps x s (subSums r s) :=
  Keeps.rod s _ rfl id id id (absurd hx) (absurd hx)

theorem unstackTag_keeps (hx : x .rods) : Keeps x s (unstackTag s) :=
  Keeps.rod s _ rfl id (fun _ => by simp; omega) id (absurd hx) (absurd hx)

/-- The rod unit's part of a push of the candidate (R78). -/
theorem pushInUnit_keeps (r : Rod) (torque : Nat) (h : s.rod.string.length < 250)
    (cand : s.rod.candidate = some r.tag) (known : findRod s r.tag = some r) : Keeps x s (pushInUnit r torque s) := by
  refine Keeps.withRods ?_ (pushInUnit_rodLaw torque cand known) (pushInUnit_sumsLaw torque cand known)
  have a : Keeps (fun p => x p ∨ p = .rods) s (stacked r torque s) :=
    ((stackTag_keeps s r.tag h (.inr rfl)).trans (updateRod_keeps _ r.tag _ (.inr rfl))).trans
      (judgeTorque_keeps _ r torque (.inr rfl))
  exact ((a.trans (addSums_keeps _ r (.inr rfl))).trans (recomputeFatigue_keeps _)).trans (clearCandidate_keeps _)

theorem pushRod_keeps (r : Rod) (torque : Nat) (h : s.rod.string.length < 250)
    (cand : s.rod.candidate = some r.tag) (known : findRod s r.tag = some r) : Keeps x s (pushRod r torque s) := by
  unfold pushRod
  dsimp only
  have k := ((pushInUnit_keeps (x := x) s r torque h cand known).trans (rodMoveNotice_keeps _ r.length)).trans
    (pitAdjustment_keeps _ (steelTerm (pushInUnit r torque s) r))
  split
  · exact k.trans (offerRodRecord_keeps _ _ ⟨rfl, rfl⟩)
  · exact k

theorem makeup_keeps (torque : Nat) : Keeps x s (makeup torque s) := by
  unfold makeup
  split
  · exact untrackedMakeup_keeps s _ _
  · next r e =>
    obtain ⟨tag, cand, known⟩ := Option.bind_eq_some_iff.1 e
    obtain rfl := findRod_tag known
    split
    · exact untrackedMakeup_keeps s _ _
    · exact pushRod_keeps s r torque (by omega) cand known

theorem retireOccurrence_keeps (r : Rod) : Keeps x s (retireOccurrence r s) :=
  Keeps.ite (Keeps.occurNat s _ _) (Keeps.refl s)

theorem retireBilling_keeps (r : Rod) : Keeps x s (retireBilling r s) := Keeps.ite (billRod_keeps s) (Keeps.refl s)

/-- No rod leaves the string into it (R81). -/
theorem leaveString_place (r : Rod) : (leaveString s r).place ≠ .string := by
  show leavingPlace s r _ ≠ .string
  unfold leavingPlace
  split
  · decide
  · split <;> decide

theorem leaveString_tag (r : Rod) : (leaveString s r).tag = r.tag := by cases r; rfl

theorem popInUnit_keeps (r y : Rod) (tag : y.tag = r.tag) (gone : y.place ≠ .string)
    (top : s.rod.string.getLast? = some r.tag) (known : findRod s r.tag = some r) : Keeps x s (popInUnit r y s) := by
  refine Keeps.withRods ?_ (popInUnit_rodLaw tag gone top known) (popInUnit_sumsLaw tag top known)
  have a : Keeps (fun p => x p ∨ p = .rods) s (unstacked r y s) :=
    ((unstackTag_keeps s (.inr rfl)).trans (updateRod_keeps _ r.tag _ (.inr rfl))).trans (retireOccurrence_keeps _ _)
  exact ((a.trans (subSums_keeps _ r (.inr rfl))).trans (recomputeFatigue_keeps _)).trans (clearCandidate_keeps _)

theorem popRod_keeps (r : Rod) (top : s.rod.string.getLast? = some r.tag) (known : findRod s r.tag = some r) :
    Keeps x s (popRod r s) :=
  ((((popInUnit_keeps s r _ (leaveString_tag s r) (leaveString_place s r) top known).trans
    (rodMoveNotice_keeps _ _)).trans (pitAdjustment_keeps _ _)).trans
    (retireBilling_keeps _ _)).trans (offerRodRecord_keeps _ _ ⟨rfl, rfl⟩)

theorem breakout_keeps : Keeps x s (breakout s) := by
  unfold breakout
  split
  · exact Keeps.occurNat s _ _
  · next r e =>
    obtain ⟨tag, top, known⟩ := Option.bind_eq_some_iff.1 e
    obtain rfl := findRod_tag known
    exact popRod_keeps s r top known

theorem breakouts_keeps (n : Nat) : ∀ s, Keeps x s (breakouts n s) := by
  induction n with
  | zero => exact Keeps.refl
  | succ n ih => exact fun s => (breakout_keeps s).trans (ih _)

theorem rodclassActivated_keeps : Keeps x s (rodclassActivated s) :=
  ((recomputeSums_keeps s).trans (recomputeFatigue_keeps _)).trans (stringChange_keeps _)

end

end Sys2Proof.Machine

/-! # What a commit of the string keeps, and requests on rods -/

namespace Sys2Proof.Machine

/-! ## The checks of a load (R73) -/

/-- A slot is in order: a known rod, not in an earlier slot, neither RETIRED nor in QUARANTINE once it is returned, and a
BIT in slot 0 only (R73). -/
theorem slotFault_eq_none_iff {s : State} {earlier : List Nat} {tag i : Nat} :
    slotFault s earlier tag i = none ↔ tag ≠ 0 ∧ ∃ r, findRod s tag = some r ∧ tag ∉ earlier ∧
      ¬(returnPlace s r = .retired ∨ returnPlace s r = .quarantine) ∧
      ¬((rodClass s r.cls).kind = kindBit ∧ i ≠ 0) := by
  unfold slotFault
  by_cases z : tag = 0
  · simp [z]
  · rw [if_neg z]
    cases findRod s tag with
    | none => simp
    | some r =>
      by_cases a : tag ∈ earlier
      · simp [a]
      · by_cases b : returnPlace s r = .retired ∨ returnPlace s r = .quarantine
        · simp [a, b, -not_or]
        · by_cases c : (rodClass s r.cls).kind = kindBit ∧ i ≠ 0
          · simp [a, b, c, -not_or]
          · simp [a, b, c, z, -not_or, -not_and]

/-- The slots of a load are in order where each is, in view of those before it. -/
theorem slotsFault_eq_none_iff (s : State) (tags : List Nat) : ∀ earlier i,
    slotsFault s earlier i tags = none ↔
      ∀ k (h : k < tags.length), slotFault s (earlier ++ tags.take k) tags[k] (i + k) = none := by
  induction tags with
  | nil => simp [slotsFault]
  | cons tag rest ih =>
    intro earlier i
    unfold slotsFault
    constructor
    · intro h k hk
      cases e : slotFault s earlier tag i with
      | some r => simp [e] at h
      | none =>
        cases k with
        | zero => simpa using e
        | succ k =>
          have := (ih _ _).1 (by simpa [e] using h) k (by simpa using hk)
          simpa [Nat.add_comm, Nat.add_left_comm] using this
    · intro h
      have e : slotFault s earlier tag i = none := by
        have first := h 0 (Nat.succ_pos _)
        rwa [List.take_zero, List.append_nil] at first
      rw [e]
      refine (ih _ _).2 fun k hk => ?_
      have := h (k + 1) (by simpa using hk)
      simpa [Nat.add_comm, Nat.add_left_comm] using this

/-- A load in order names known rods, none of them twice. -/
theorem slotsFault_none_found {s : State} {tags : List Nat} (h : slotsFault s [] 0 tags = none) :
    tags.Nodup ∧ ∀ tag ∈ tags, ∃ r, findRod s tag = some r := by
  rw [slotsFault_eq_none_iff] at h
  constructor
  · rw [List.nodup_iff_pairwise_ne, List.pairwise_iff_getElem]
    intro i j hi hj lt e
    obtain ⟨-, r, -, out, -⟩ := slotFault_eq_none_iff.1 (h j hj)
    refine out ?_
    rw [List.nil_append, ← e]
    exact List.mem_take_iff_getElem.2 ⟨i, by omega, rfl⟩
  · intro tag m
    obtain ⟨i, hi, rfl⟩ := List.getElem_of_mem m
    obtain ⟨-, r, k, -⟩ := slotFault_eq_none_iff.1 (h i hi)
    exact ⟨r, k⟩

/-- A commit that passes its checks has a header and a load in order (R73). -/
theorem commitFault_none {s : State} (h : commitFault s = none) :
    ∃ header, s.rod.loadHeader = some header ∧ slotsFault s [] 0 (loadTags s header.count) = none := by
  unfold commitFault at h
  split at h
  · cases h
  · split at h
    · cases h
    · split at h
      · cases h
      · next header _ e => exact ⟨header, e, h⟩
      · cases h

/-! ## The rods returned and placed (R73) -/

theorem returnRod_rod (tag : Nat) (s : State) :
    (returnRod tag s).rod = match findRod s tag with
      | none => s.rod
      | some r => (updateRod tag (fun _ => leaveString s r) s).rod := by
  unfold returnRod
  cases findRod s tag with
  | none => rfl
  | some r =>
    have bill : ∀ y t, (retireBilling y t).rod = t.rod := fun y t => by
      unfold retireBilling billRod accrue
      repeat' split
      all_goals rfl
    exact (bill _ _).trans (retireOccurrence_eventOnly _ _).rod

/-- The state whose rod table alone differs. -/
structure TableOnly (s t : State) : Prop where
  rod : t.rod = { s.rod with table := t.rod.table }
  tags : t.rod.table.map (·.tag) = s.rod.table.map (·.tag)

theorem TableOnly.trans {s t u : State} (h : TableOnly s t) (k : TableOnly t u) : TableOnly s u :=
  ⟨by rw [k.rod, h.rod], k.tags.trans h.tags⟩

theorem updateRod_tableOnly {tag : Nat} {f : Rod → Rod} (s : State) (hf : ∀ r, r.tag = tag → (f r).tag = tag) :
    TableOnly s (updateRod tag f s) := ⟨rfl, updateRod_tags s hf⟩

theorem returnRod_tableOnly (tag : Nat) (s : State) : TableOnly s (returnRod tag s) := by
  have e := returnRod_rod tag s
  split at e
  · exact ⟨by rw [e], by rw [e]⟩
  · next r h =>
    have := updateRod_tableOnly (tag := tag) (f := fun _ => leaveString s r) s fun _ _ =>
      (leaveString_tag s r).trans (findRod_tag h)
    exact ⟨by rw [e]; rfl, by rw [e]; exact this.tags⟩

theorem findRod_returnRod (tag : Nat) (s : State) (n : Nat) :
    findRod (returnRod tag s) n = if n = tag then (findRod s n).map (leaveString s) else findRod s n := by
  have e := returnRod_rod tag s
  split at e
  · next h =>
    rw [findRod_congr (congrArg RodState.table e) n]
    split
    · next k => subst k; rw [h]; rfl
    · rfl
  · next r h =>
    rw [findRod_congr (congrArg RodState.table e) n,
      findRod_updateRod (tag := tag) (f := fun _ => leaveString s r) s fun _ _ =>
        (leaveString_tag s r).trans (findRod_tag h)]
    split
    · next k => subst k; rw [h]; rfl
    · rfl

theorem returnRods_tableOnly (l : List Nat) : ∀ s, TableOnly s (returnRods l s) := by
  induction l with
  | nil => exact fun s => ⟨rfl, rfl⟩
  | cons tag rest ih => exact fun s => (returnRod_tableOnly tag s).trans (ih _)

/-- A rod that is not returned keeps its record. -/
theorem findRod_returnRods_of_not_mem (l : List Nat) : ∀ s {n : Nat}, n ∉ l → findRod (returnRods l s) n = findRod s n := by
  induction l with
  | nil => exact fun _ _ _ => rfl
  | cons tag rest ih =>
    intro s n h
    rw [List.mem_cons, not_or] at h
    exact (ih _ h.2).trans (by rw [findRod_returnRod, if_neg h.1])

/-- A rod that is returned has a record still, out of the string. -/
theorem findRod_returnRods_of_mem (l : List Nat) : ∀ s {n : Nat} {r : Rod}, n ∈ l → findRod s n = some r →
    ∃ y, findRod (returnRods l s) n = some y ∧ y.place ≠ .string := by
  induction l with
  | nil => exact fun _ _ _ m => nomatch m
  | cons tag rest ih =>
    intro s n r m h
    have e := findRod_returnRod tag s n
    rw [h] at e
    by_cases k : n ∈ rest
    · by_cases t : n = tag
      · rw [if_pos t] at e; exact ih _ k e
      · rw [if_neg t] at e; exact ih _ k e
    · have t : n = tag := (List.mem_cons.1 m).resolve_right k
      rw [if_pos t] at e
      exact ⟨_, (findRod_returnRods_of_not_mem rest _ k).trans e, leaveString_place s r⟩

/-- A rod's record as a load places it (R73). -/
def placedRod (old : List Nat) (tag : Nat) (s : State) (r : Rod) : Rod :=
  { r with
    place := .string
    entry := some s.rod.fatigueClock
    runs := if old.contains tag then r.runs else min 65535 (r.runs + 1) }

theorem findRod_placeRod (old : List Nat) (tag : Nat) (s : State) (n : Nat) :
    findRod (placeRod old tag s) n = if n = tag then (findRod s n).map (placedRod old tag s) else findRod s n :=
  findRod_updateRod (f := placedRod old tag s) s (fun _ h => h) n

theorem placeRods_tableOnly (old l : List Nat) : ∀ s, TableOnly s (placeRods old l s) := by
  induction l with
  | nil => exact fun s => ⟨rfl, rfl⟩
  | cons tag rest ih =>
    exact fun s => (updateRod_tableOnly (f := placedRod old tag s) s fun _ h => h).trans (ih (placeRod old tag s))

theorem findRod_placeRods_of_not_mem (old l : List Nat) : ∀ s {n : Nat}, n ∉ l →
    findRod (placeRods old l s) n = findRod s n := by
  induction l with
  | nil => exact fun _ _ _ => rfl
  | cons tag rest ih =>
    intro s n h
    rw [List.mem_cons, not_or] at h
    exact (ih (placeRod old tag s) h.2).trans (by rw [findRod_placeRod, if_neg h.1])

/-- A rod of the load is in the string, with the fatigue clock as its entry mark (R73). -/
theorem findRod_placeRods_of_mem (old l : List Nat) : ∀ s {n : Nat} {r : Rod}, n ∈ l → findRod s n = some r →
    ∃ y, findRod (placeRods old l s) n = some y ∧ y.place = .string ∧ y.entry = some s.rod.fatigueClock := by
  induction l with
  | nil => exact fun _ _ _ m => nomatch m
  | cons tag rest ih =>
    intro s n r m h
    have e := findRod_placeRod old tag s n
    rw [h] at e
    by_cases k : n ∈ rest
    · obtain ⟨r', e'⟩ : ∃ r', findRod (placeRod old tag s) n = some r' := by
        rw [e]; split <;> exact ⟨_, rfl⟩
      exact ih (placeRod old tag s) k e'
    · have t : n = tag := (List.mem_cons.1 m).resolve_right k
      rw [if_pos t] at e
      exact ⟨_, (findRod_placeRods_of_not_mem old rest (placeRod old tag s) k).trans e, rfl, rfl⟩

/-! ## A commit (R73) -/

/-- The load with its rods placed, the present string having been returned. -/
def placedLoad (tags : List Nat) (s : State) : State := placeRods s.rod.string tags (returnRods s.rod.string.reverse s)

theorem placedLoad_tableOnly (tags : List Nat) (s : State) : TableOnly s (placedLoad tags s) :=
  (returnRods_tableOnly _ s).trans (placeRods_tableOnly _ _ _)

/-- A rod of the load stands in the string after it. -/
theorem findRod_placedLoad_of_mem {tags : List Nat} {s : State} {n : Nat} {r : Rod} (m : n ∈ tags)
    (h : findRod s n = some r) : ∃ y, findRod (placedLoad tags s) n = some y ∧ y.place = .string ∧
      y.entry = some s.rod.fatigueClock := by
  have clock : (returnRods s.rod.string.reverse s).rod.fatigueClock = s.rod.fatigueClock := by
    rw [(returnRods_tableOnly _ s).rod]
  obtain ⟨y, hy⟩ : ∃ y, findRod (returnRods s.rod.string.reverse s) n = some y := by
    by_cases k : n ∈ s.rod.string.reverse
    · obtain ⟨y, hy, -⟩ := findRod_returnRods_of_mem _ s k h
      exact ⟨y, hy⟩
    · exact ⟨r, (findRod_returnRods_of_not_mem _ s k).trans h⟩
  obtain ⟨z, hz, p, q⟩ := findRod_placeRods_of_mem s.rod.string tags _ m hy
  exact ⟨z, hz, p, q.trans (congrArg some clock)⟩

/-- No rod but those of the load stands in the string after it. -/
theorem findRod_placedLoad_of_not_mem {tags : List Nat} {s : State} (l : RodLaw s) {n : Nat} (m : n ∉ tags) {y : Rod}
    (h : findRod (placedLoad tags s) n = some y) : y.place ≠ .string := by
  rw [placedLoad, findRod_placeRods_of_not_mem _ _ _ m] at h
  by_cases k : n ∈ s.rod.string
  · obtain ⟨r, hr, -⟩ := ((rodLaw_iff s).1 l).2.2.1 n |>.1 k
    obtain ⟨z, hz, p⟩ := findRod_returnRods_of_mem _ s (List.mem_reverse.2 k) hr
    rw [h] at hz
    cases hz
    exact p
  · rw [findRod_returnRods_of_not_mem _ s (by simpa using k)] at h
    exact fun p => k ((((rodLaw_iff s).1 l).2.2.1 n).2 ⟨y, h, p⟩)

/-- The rod unit with a load as its string: VALID, without a candidate, the sums and the fatigue limit recomputed. -/
def loadedUnit (tags : List Nat) (s : State) : State :=
  recomputeFatigue (recomputeSums (setRodCandidate none (report srcStringInvalid false
    ((placedLoad tags s).setRod { (placedLoad tags s).rod with string := tags, valid := true }))))

theorem loadedUnit_rod (tags : List Nat) (s : State) :
    (loadedUnit tags s).rod = { s.rod with
      table := (placedLoad tags s).rod.table, string := tags, valid := true, candidate := none
      length := (loadedUnit tags s).rod.length, weight := (loadedUnit tags s).rod.weight
      steel := (loadedUnit tags s).rod.steel, fatigueLimit := (loadedUnit tags s).rod.fatigueLimit } := by
  have r := (report_eventOnly srcStringInvalid false
    ((placedLoad tags s).setRod { (placedLoad tags s).rod with string := tags, valid := true })).rod
  unfold loadedUnit
  rw [recomputeFatigue_rod]
  simp only [recomputeSums, setRodCandidate, State.setRod_rod, r]
  rw [(placedLoad_tableOnly tags s).rod]

theorem loadedUnit_rodLaw {tags : List Nat} {s : State} (nodup : tags.Nodup)
    (known : ∀ tag ∈ tags, ∃ r, findRod s tag = some r) (l : RodLaw s) : RodLaw (loadedUnit tags s) := by
  have e := loadedUnit_rod tags s
  have found : ∀ n, findRod (loadedUnit tags s) n = findRod (placedLoad tags s) n := fun n =>
    findRod_congr (by rw [e]) n
  rw [rodLaw_iff]
  refine ⟨?_, by rw [e]; exact nodup, fun n => ?_, by rw [e]; exact fun _ h => nomatch h⟩
  · rw [e]
    exact (placedLoad_tableOnly tags s).tags ▸ l.tags
  · rw [found n, show (loadedUnit tags s).rod.string = tags by rw [e]]
    constructor
    · intro m
      obtain ⟨r, hr⟩ := known n m
      obtain ⟨y, hy, p, -⟩ := findRod_placedLoad_of_mem m hr
      exact ⟨y, hy, p⟩
    · rintro ⟨y, hy, p⟩
      by_contra m
      exact findRod_placedLoad_of_not_mem l m hy p

theorem loadedUnit_sums (tags : List Nat) (s : State) : SumsLaw (loadedUnit tags s) := by
  have k : ∀ t, SumsLaw (recomputeSums t) → SumsLaw (recomputeFatigue (recomputeSums t)) := fun t h =>
    SumsLaw.same (by rw [recomputeFatigue_rod]) (by rw [recomputeFatigue_rod]) (by rw [recomputeFatigue_rod])
      (by rw [recomputeFatigue_rod]) (by rw [recomputeFatigue_rod])
      (by unfold activeCopy; rw [(recomputeFatigue_quiet (recomputeSums t)).tables]) h
  exact k _ (recomputeSums_sums _)

section
variable {x : Part → Prop} (s : State)

theorem returnRod_keeps (tag : Nat) (hx : x .rods) : Keeps x s (returnRod tag s) := by
  unfold returnRod
  split
  · exact Keeps.refl s
  · exact ((updateRod_keeps s tag _ hx).trans (retireOccurrence_keeps _ _)).trans (retireBilling_keeps _ _)

theorem returnRods_keeps (hx : x .rods) (l : List Nat) : ∀ s, Keeps x s (returnRods l s) := by
  induction l with
  | nil => exact Keeps.refl
  | cons tag rest ih => exact fun s => (returnRod_keeps s tag hx).trans (ih _)

theorem placeRods_keeps (hx : x .rods) (old l : List Nat) : ∀ s, Keeps x s (placeRods old l s) := by
  induction l with
  | nil => exact Keeps.refl
  | cons tag rest ih => exact fun s => (updateRod_keeps s tag _ hx).trans (ih (placeRod old tag s))

/-- The string is the one that the load's header counts. -/
theorem loadString_keeps {tags : List Nat} {header : LoadHeader} (hh : s.rod.loadHeader = some header)
    (n : tags.length = header.count) (hx : x .rods) :
    Keeps x s (s.setRod { s.rod with string := tags, valid := true }) :=
  { Keeps.refl s with
    out := id
    rest := fun _ _ => AtRest.same rfl rfl rfl rfl
    fits := fun f => { f with string := n ▸ f.loadCount header hh }
    waits := fun _ => Waits.same rfl rfl rfl id rfl
    conds := fun _ _ _ _ => rfl
    job := fun _ => ⟨rfl, rfl, rfl, rfl, rfl, rfl, rfl, rfl⟩
    rodLaw := fun h => absurd hx h
    sums := fun h => absurd hx h }

theorem loadedUnit_keeps {tags : List Nat} {header : LoadHeader} (hh : s.rod.loadHeader = some header)
    (n : tags.length = header.count) (nodup : tags.Nodup) (known : ∀ tag ∈ tags, ∃ r, findRod s tag = some r) :
    Keeps x s (loadedUnit tags s) := by
  refine Keeps.withRods ?_ (loadedUnit_rodLaw nodup known) fun _ _ => loadedUnit_sums tags s
  have placed : Keeps (fun p => x p ∨ p = .rods) s (placedLoad tags s) :=
    (returnRods_keeps (.inr rfl) _ s).trans (placeRods_keeps (.inr rfl) _ _ _)
  have hh' : (placedLoad tags s).rod.loadHeader = some header := by rw [(placedLoad_tableOnly tags s).rod]; exact hh
  have string := loadString_keeps (x := fun p => x p ∨ p = .rods) _ hh' n (.inr rfl)
  have reported := placed.trans (string.trans (Keeps.report _ srcStringInvalid false fun h =>
    absurd h (not_reserved (by decide) (by decide))))
  exact ((reported.trans (clearCandidate_keeps _)).trans (recomputeSums_keeps _)).trans (recomputeFatigue_keeps _)

/-- A commit that passes its checks (R73). -/
theorem carryOutCommit_keeps {tags : List Nat} {header : LoadHeader} (top : Option Int)
    (hh : s.rod.loadHeader = some header) (n : tags.length = header.count) (nodup : tags.Nodup)
    (known : ∀ tag ∈ tags, ∃ r, findRod s tag = some r) : Keeps x s (carryOutCommit tags top s) := by
  have emptied : Keeps x (loadedUnit tags s) ((loadedUnit tags s).setRod
      { (loadedUnit tags s).rod with loadHeader := none, loadPages := Vector.replicate 21 none }) :=
    Keeps.rod _ _ rfl id id (fun _ _ h => nomatch h) (fun _ => RodLaw.same rfl rfl rfl)
      fun _ _ => SumsLaw.same rfl rfl rfl rfl rfl rfl
  have noticed := ((loadedUnit_keeps (x := x) s hh n nodup known).trans emptied).trans (commitNotice_keeps _ top)
  exact Keeps.ite noticed (noticed.trans (stringChange_keeps _))

theorem stringCommitBody_keeps (f : Frame) : Keeps x s (stringCommitBody f s).1 := by
  unfold stringCommitBody
  split
  · exact Keeps.refl s
  · next header e hh =>
    obtain ⟨header', hh', ok⟩ := commitFault_none e
    obtain rfl : header = header' := Option.some.inj (hh.symm.trans hh')
    obtain ⟨nodup, known⟩ := slotsFault_none_found ok
    exact carryOutCommit_keeps s header.top hh (by simp [loadTags]) nodup known
  · exact Keeps.refl s

/-! ## Requests on rods (R67, R68, R72) -/

theorem stringLoadBody_keeps (f : Frame) : Keeps x s (stringLoadBody f s).1 := by
  rw [stringLoadBody, apply_ite Prod.fst, apply_ite Prod.fst, apply_ite Prod.fst, apply_ite Prod.fst]
  refine Keeps.ite (Keeps.refl s) (Keeps.ite (Keeps.refl s) (Keeps.ite ?_ ?_))
  · by_cases h : 250 < f.val 1 ∨ 1 < f.val 2
    · rw [if_pos h]; exact Keeps.refl s
    · rw [if_neg h]
      refine Keeps.rod s _ rfl id id (fun _ y e => ?_) (fun _ => RodLaw.same rfl rfl rfl)
        fun _ _ => SumsLaw.same rfl rfl rfl rfl rfl rfl
      cases e
      exact Nat.le_of_not_lt (not_or.1 h).1
  · exact Keeps.rodSame s _ rfl rfl rfl rfl rfl rfl rfl rfl

theorem findRod_append {s : State} {y : Rod} (n : Nat) :
    findRod (s.setRod { s.rod with table := s.rod.table ++ [y] }) n =
      (findRod s n).or (if y.tag = n then some y else none) := by
  show (s.rod.table ++ [y]).find? _ = _
  rw [List.find?_append]
  by_cases h : y.tag = n <;> simp [findRod, h]

/-- A record is created for a tag that has none (R67). -/
theorem appendRecord_keeps (y : Rod) (new : findRod s y.tag = none) (place : y.place = .rack)
    (room : s.rod.table.length < 256) : Keeps x s (s.setRod { s.rod with table := s.rod.table ++ [y] }) := by
  have other : ∀ n, n ≠ y.tag →
      findRod (s.setRod { s.rod with table := s.rod.table ++ [y] }) n = findRod s n := fun n h => by
    rw [findRod_append, if_neg (Ne.symm h), Option.or_none]
  have own : findRod (s.setRod { s.rod with table := s.rod.table ++ [y] }) y.tag = some y := by
    rw [findRod_append, new, if_pos rfl]; rfl
  have out : RodLaw s → y.tag ∉ s.rod.string := fun l m => by
    obtain ⟨r, hr, -⟩ := ((rodLaw_iff s).1 l).2.2.1 y.tag |>.1 m
    rw [new] at hr
    cases hr
  refine Keeps.rod s _ rfl (fun _ => by simp; omega) id id (fun _ l => ?_) fun _ l m => ?_
  · obtain ⟨a, b, c, d⟩ := (rodLaw_iff s).1 l
    refine (rodLaw_iff _).2 ⟨?_, b, fun n => (c n).trans ?_, fun n h => ?_⟩
    · simp only [State.setRod_rod, List.map_append, List.map_cons, List.map_nil]
      refine List.nodup_append.2 ⟨a, List.nodup_singleton _, fun p hp q hq => ?_⟩
      obtain ⟨r, hr, rfl⟩ := List.mem_map.1 hp
      rw [List.mem_singleton.1 hq]
      exact findRod_eq_none_iff.1 new r hr
    · by_cases h : n = y.tag
      · subst h
        rw [own, new]
        simp [place]
      · rw [other n h]
    · obtain ⟨r, hr, p⟩ := d n h
      by_cases k : n = y.tag
      · subst k; rw [new] at hr; cases hr
      · exact ⟨r, (other n k).trans hr, p⟩
  · have rods : stringRods (s.setRod { s.rod with table := s.rod.table ++ [y] }) = stringRods s :=
      filterMap_findRod_congr (out l) other
    obtain ⟨m1, m2, m3⟩ := m
    constructor <;> rw [rods] <;> assumption

theorem rackAddBody_keeps (f : Frame) : Keeps x s (rackAddBody f s).1 := by
  unfold rackAddBody
  split
  · exact Keeps.refl s
  · split
    · exact Keeps.refl s
    · next new =>
      split
      · exact Keeps.refl s
      · next room => exact appendRecord_keeps s (rackRod f) new rfl (by omega)

/-- A record is deleted (R68). -/
theorem deleteRecord_keeps {tag : Nat} {r : Rod} (known : findRod s tag = some r) (place : r.place ≠ .string) :
    Keeps x s (s.setRod { s.rod with
      table := s.rod.table.filter fun x => x.tag != tag
      candidate := if s.rod.candidate = some tag then none else s.rod.candidate }) := by
  have other : ∀ n, n ≠ tag → findRod (s.setRod { s.rod with
      table := s.rod.table.filter fun x => x.tag != tag
      candidate := if s.rod.candidate = some tag then none else s.rod.candidate }) n = findRod s n := fun n h => by
    show (s.rod.table.filter _).find? _ = s.rod.table.find? _
    rw [List.find?_filter]
    congr 1
    funext y
    by_cases e : y.tag = n
    · simp [e, h]
    · simp [e]
  have own : findRod (s.setRod { s.rod with
      table := s.rod.table.filter fun x => x.tag != tag
      candidate := if s.rod.candidate = some tag then none else s.rod.candidate }) tag = none := by
    rw [findRod_eq_none_iff]
    intro y m
    simpa using (List.mem_filter.1 m).2
  have out : RodLaw s → tag ∉ s.rod.string := fun l m => by
    obtain ⟨y, hy, p⟩ := ((rodLaw_iff s).1 l).2.2.1 tag |>.1 m
    rw [known] at hy
    cases hy
    exact place p
  refine Keeps.rod s _ rfl (fun h => (List.length_filter_le _ _).trans h) id id (fun _ l => ?_) fun _ l m => ?_
  · obtain ⟨a, b, c, d⟩ := (rodLaw_iff s).1 l
    refine (rodLaw_iff _).2 ⟨a.sublist (List.filter_sublist.map _), b, fun n => ?_, fun n h => ?_⟩
    · by_cases e : n = tag
      · subst e
        rw [own]
        simpa using out l
      · rw [other n e]; exact c n
    · simp only [State.setRod_rod] at h
      split at h
      · cases h
      · next k =>
        have e : n ≠ tag := by rintro rfl; exact k h
        rw [other n e]
        exact d n h
  · have rods : stringRods (s.setRod { s.rod with
        table := s.rod.table.filter fun x => x.tag != tag
        candidate := if s.rod.candidate = some tag then none else s.rod.candidate }) = stringRods s :=
      filterMap_findRod_congr (out l) other
    obtain ⟨m1, m2, m3⟩ := m
    constructor <;> rw [rods] <;> assumption

theorem rackRemoveBody_keeps (f : Frame) : Keeps x s (rackRemoveBody f s).1 := by
  unfold rackRemoveBody
  split
  · exact Keeps.refl s
  · next r known =>
    split
    · exact Keeps.refl s
    · next place => exact deleteRecord_keeps s known place

end

end Sys2Proof.Machine

/-! # What the channel unit and the line interface keep -/

namespace Sys2Proof.Machine

/-! ## The channel unit -/

section
variable {x : Part → Prop} (s : State)

/-- Writing the channels. -/
theorem Keeps.channelsWritten (c : Vector Channel 16) (hx : x .channels) : Keeps x s (s.setChannels c) :=
  { Keeps.refl s with
    out := id
    rest := fun _ _ => AtRest.same rfl rfl rfl rfl
    fits := Fits.same rfl rfl rfl rfl rfl
    waits := fun _ => Waits.same rfl rfl rfl id rfl
    channels := absurd hx
    conds := absurd hx
    job := fun _ => ⟨rfl, rfl, rfl, rfl, rfl, rfl, rfl, rfl⟩
    rodLaw := fun _ => RodLaw.same rfl rfl rfl
    sums := fun _ _ => SumsLaw.same rfl rfl rfl rfl rfl rfl }

theorem setChannel_keeps (c : Ch) (y : Channel) (hx : x .channels) : Keeps x s (setChannel c y s) :=
  Keeps.channelsWritten s _ hx

theorem channelOccur_keeps (c : Ch) (cause aux : Nat) : Keeps x s (channelOccur c cause aux s) := Keeps.occurNat s _ _

theorem reportFault_keeps (c : Ch) (hx : x .channels) : Keeps x s (reportFault c s) :=
  Keeps.report s _ _ fun _ => .inl hx

theorem reportLimit_keeps (c : Ch) (l : LimitNo) (hx : x .channels) : Keeps x s (reportLimit c l s) := by
  unfold reportLimit
  split
  · exact Keeps.report s _ _ fun _ => .inl hx
  · exact Keeps.refl s

theorem reportLimits_keeps (c : Ch) (hx : x .channels) : Keeps x s (reportLimits c s) :=
  (reportLimit_keeps s c .l1 hx).trans (reportLimit_keeps _ c .l2 hx)

theorem evalLimit_keeps (c : Ch) (v : Nat) (l : LimitNo) (hx : x .channels) : Keeps x s (evalLimit c v l s) := by
  have r : Keeps x s (reportLimit c l (setChannel c (s.channels[c].withLimit l (limitNext s c l v)) s)) :=
    (setChannel_keeps s c _ hx).trans (reportLimit_keeps _ c l hx)
  unfold evalLimit
  split
  · exact Keeps.ite (r.trans (Keeps.occurNat _ _ _)) r
  · exact r

/-! ### Notices -/

theorem stateNotice_keeps (c : Ch) (v : ValueState) : Keeps x s (stateNotice c v s) := by
  unfold stateNotice
  dsimp only
  split
  · exact Keeps.ite (setRate_keeps s _ _ (.inr rfl)) (Keeps.refl s)
  · exact Keeps.ite (setRate_keeps s _ _ (.inr rfl)) (Keeps.refl s)
  · exact evalReturnLow_keeps s
  · exact pitStateNotice_keeps s v
  · exact recomputeLoad_keeps s
  · exact recomputeTop_keeps s
  · exact slipsNotice_keeps s
  · exact recomputeWeight_keeps s
  · exact Keeps.refl s

theorem baselineNotice_keeps (c : Ch) (m : s.line.mode ≠ .bypass) : Keeps x s (baselineNotice c s) := by
  unfold baselineNotice
  split
  · exact setRate_keeps s _ _ (.inl m)
  · exact setRate_keeps s _ _ (.inl m)
  · exact Keeps.refl s

/-- The notice of an accepted sample, which no channel sends in BYPASS. -/
theorem acceptedNotice_keeps (hx : ¬x .mode) (c : Ch) (v delta dt : Nat) (b : ValueState) (m : s.line.mode ≠ .bypass) :
    Keeps x s (acceptedNotice c v delta dt b s) := by
  have block : Keeps x s (blockHeightSample s) := blockHeightSample_keeps s
  unfold acceptedNotice
  split
  · exact (strokeSample_keeps s _ _ _ m).trans (depthSample_keeps _)
  · exact (strokeSample_keeps s _ _ _ m).trans (depthSample_keeps _)
  · exact pressureSample_keeps s v
  · exact evalReturnLow_keeps s
  · exact pitVolumeSample_keeps s v b
  · exact (waterSample_keeps s delta).trans (billWater_keeps _ _)
  · exact depthSample_keeps s
  · exact block.trans (blockSample_keeps _ (block.notBypass hx m) v)
  · exact depthSample_keeps s
  · exact (fatigueSample_keeps s v dt).trans (intervalTorque_keeps _ v dt)
  · exact depthSample_keeps s
  · exact makeup_keeps s v
  · exact recomputeWeight_keeps s
  · exact handlerSample_keeps s m v
  · exact tagSample_keeps s v
  · exact breakouts_keeps _ s

/-! ### Samples and changes of state -/

theorem takenEffects_keeps (hm : ¬x .mode) (hx : x .channels) (c : Ch) (t : Taken) (m : s.line.mode ≠ .bypass) :
    Keeps x s (takenEffects c t s) := by
  cases t with
  | short n => exact channelOccur_keeps s _ _ _
  | outOfSet raw => exact channelOccur_keeps s _ _ _
  | settled before raw clamped =>
    have s1 := reportFault_keeps (x := x) s c hx
    have s2 := s1.trans (Keeps.ite (c := clamped = true) (channelOccur_keeps _ c 3 raw) (Keeps.refl _))
    have s3 := s2.trans (Keeps.ite (c := c = 11) (channelOccur_keeps _ c 6 raw) (Keeps.refl _))
    have s4 := s3.trans (Keeps.ite (c := before = .lost) (stateNotice_keeps _ c .absentSettled) (Keeps.refl _))
    exact s4.trans (Keeps.ite (baselineNotice_keeps _ c (s4.notBypass hm m)) (Keeps.refl _))
  | accepted before raw v clamped delta jump dt =>
    have s1 := reportFault_keeps (x := x) s c hx
    have s2 := s1.trans (Keeps.ite (c := clamped = true) (channelOccur_keeps _ c 3 raw) (Keeps.refl _))
    have s3 := s2.trans (show Keeps x _ (jumpOccur c jump _) by
      cases jump with
      | some d => exact channelOccur_keeps _ c 4 d
      | none => exact Keeps.refl _)
    have s4 := (s3.trans (evalLimit_keeps _ c v .l1 hx)).trans (evalLimit_keeps _ c v .l2 hx)
    have s5 := s4.trans (acceptedNotice_keeps _ hm c v delta dt before (s4.notBypass hm m))
    exact s5.trans (Keeps.ite (Keeps.refl _) (stateNotice_keeps _ c .live))

theorem channelUnitTakes_keeps (hm : ¬x .mode) (hx : x .channels) (f : Frame) (m : s.line.mode ≠ .bypass) :
    Keeps x s (channelUnitTakes f s) := by
  have taken : Keeps x s ((matchedChannels s f).foldl (fun t c => setChannel c (takeFrom s f c).1 t) s) :=
    List.foldlRecOn (motive := Keeps x s) _ _ (Keeps.refl s) fun t h c _ => h.trans (setChannel_keeps t c _ hx)
  exact List.foldlRecOn (motive := Keeps x s) _ _ taken fun t h c _ =>
    h.trans (takenEffects_keeps t hm hx c _ (h.notBypass hm m))

theorem channelChanged_keeps (hx : x .channels) (c : Ch) (before : ValueState) :
    Keeps x s (channelChanged c before s) := by
  have s1 := (reportLimits_keeps (x := x) s c hx).trans (reportFault_keeps _ c hx)
  unfold channelChanged
  refine Keeps.ite s1 ((s1.trans ?_).trans (stateNotice_keeps _ c _))
  split
  · exact channelOccur_keeps _ _ _ _
  · exact channelOccur_keeps _ _ _ _
  · exact Keeps.refl _

theorem changeChannels_keeps (hx : x .channels) (cs : List Ch) (f : Ch → Channel → Channel) :
    Keeps x s (changeChannels cs f s) := by
  have changed : Keeps x s (cs.foldl (fun t c => setChannel c (f c s.channels[c]) t) s) :=
    List.foldlRecOn (motive := Keeps x s) _ _ (Keeps.refl s) fun t h c _ => h.trans (setChannel_keeps t c _ hx)
  exact List.foldlRecOn (motive := Keeps x s) _ _ changed fun t h c _ => h.trans (channelChanged_keeps t hx c _)

theorem unbindSetpoint_keeps (old : List Page) (r : Role) : Keeps x s (unbindSetpoint old r s) :=
  Keeps.ite (Keeps.refl s) (remember_keeps s r none (.inr rfl))

theorem channelActivated_keeps (hx : x .channels) (old : List Page) : Keeps x s (channelActivated old s) :=
  ((unbindSetpoint_keeps s old .pump1).trans (unbindSetpoint_keeps _ old .pump2)).trans (changeChannels_keeps _ hx _ _)

theorem ratesBypass_keeps : Keeps x s (ratesBypass s) :=
  (setRate_keeps s .one none (.inr rfl)).trans (setRate_keeps _ .two none (.inr rfl))

/-- The FIFOs and the injections are emptied (R15). -/
theorem emptyFifos_keeps : Keeps x s (s.setLine { s.line with forward := [], downstream := [], injections := [] }) :=
  Keeps.lineSame _ (fun f => { f with
      forward := Nat.zero_le _, downstream := Nat.zero_le _, injections := Nat.zero_le _ })
    ⟨rfl, rfl⟩ ⟨rfl, rfl⟩ ⟨rfl, rfl⟩ (fun _ _ => ⟨rfl, rfl, rfl⟩) ⟨rfl, rfl⟩

theorem enterBypass_keeps (hm : x .mode) (hx : x .channels) : Keeps x s (enterBypass s) := by
  have mode := setMode_keeps (x := x) s .bypass (.inl hm)
  have emptied := mode.trans (emptyFifos_keeps _)
  have changed := (emptied.trans (recomputeCandidate_keeps _)).trans (changeChannels_keeps _ hx (List.finRange 16)
    fun _ y => y.withdrawn .absentUnsettled)
  exact (changed.trans (ratesBypass_keeps _)).trans (governorBypass_keeps _)

/-! ## Links and disposal -/

theorem setLink_keeps (p : Port) (l : PortLink) (hx : x .links) : Keeps x s (setLink p l s) := by
  cases p <;> exact Keeps.line _ (fun f => { f with }) (absurd hx) ⟨rfl, rfl⟩ (fun _ => .inl rfl) id
    (fun _ _ => .quiet rfl rfl rfl rfl rfl rfl) fun _ => Waits.line rfl rfl

theorem reportLinkDown_keeps (hx : x .links) : Keeps x s (reportLinkDown s) := Keeps.report s _ _ fun _ => .inr hx

theorem linkFrame_keeps (p : Port) (hx : x .links) : Keeps x s (linkFrame p s) :=
  (setLink_keeps s p _ hx).trans (reportLinkDown_keeps _ hx)

theorem fallDown_keeps (p : Port) (hx : x .links) : Keeps x s (fallDown p s) :=
  ((setLink_keeps s p _ hx).trans (reportLinkDown_keeps _ hx)).trans (Keeps.occurNat _ _ _)

theorem offerForward_keeps (f : Frame) (m : s.line.mode ≠ .bypass) : Keeps x s (offerForward f s) := by
  unfold offerForward
  split
  · next h =>
    exact Keeps.lineSame _ (fun k => { k with forward := by simpa [forwardSize] using h }) ⟨rfl, rfl⟩ ⟨rfl, rfl⟩ ⟨rfl, rfl⟩
      (fun b => absurd b m) ⟨rfl, rfl⟩
  · exact Keeps.occurNat s _ _

theorem offerDownstream_keeps (f : Frame) (m : s.line.mode ≠ .bypass) : Keeps x s (offerDownstream f s) := by
  unfold offerDownstream
  split
  · next h =>
    exact Keeps.lineSame _ (fun k => { k with downstream := by simpa [downstreamSize] using h }) ⟨rfl, rfl⟩ ⟨rfl, rfl⟩ ⟨rfl, rfl⟩
      (fun b => absurd b m) ⟨rfl, rfl⟩
  · exact Keeps.occurNat s _ _

theorem offerRequest_keeps (f : Frame) : Keeps x s (offerRequest f s) := by
  unfold offerRequest
  split
  · next h =>
    exact Keeps.lineSame _ (fun k => { k with requests := by simpa [requestSize] using h }) ⟨rfl, rfl⟩ ⟨rfl, rfl⟩ ⟨rfl, rfl⟩
      (fun _ r => ⟨r.forward, r.downstream, r.injections⟩) ⟨rfl, rfl⟩
  · exact Keeps.occurNat s _ _

/-- A frame on the FIELD line is disposed of; no sample is taken in BYPASS. -/
theorem fieldDispose_keeps (hm : ¬x .mode) (hx : s.line.mode = .bypass ∨ x .channels) (f : Frame) :
    Keeps x s (fieldDispose f s) := by
  unfold fieldDispose
  split
  · exact Keeps.refl s
  · next m =>
    have taken : Keeps x s (if f.kind = kindSample then channelUnitTakes f s else s) :=
      Keeps.ite (channelUnitTakes_keeps s hm (hx.resolve_left m) f m) (Keeps.refl s)
    exact taken.trans (offerForward_keeps _ f (taken.notBypass hm m))

theorem cabDispose_keeps (f : Frame) : Keeps x s (cabDispose f s) := by
  refine Keeps.ite (offerRequest_keeps s f) ?_
  split
  · exact Keeps.refl s
  · next m => exact offerDownstream_keeps s f m

theorem wellFormedFrame_keeps (hl : x .links) (hm : ¬x .mode) (hx : s.line.mode = .bypass ∨ x .channels) (p : Port)
    (f : Frame) : Keeps x s (wellFormedFrame p f s) := by
  have linked := linkFrame_keeps (x := x) s p hl
  cases p with
  | field => exact linked.trans (fieldDispose_keeps _ hm (hx.imp_left (linked.bypass hm)) f)
  | cab => exact linked.trans (cabDispose_keeps _ f)

theorem arrive_keeps (hl : x .links) (hm : ¬x .mode) (hx : s.line.mode = .bypass ∨ x .channels) (p : Port)
    (bytes : List Byte) : Keeps x s (arrive p s bytes) := by
  unfold arrive
  split
  · next f _ => exact wellFormedFrame_keeps s hl hm hx p f
  · exact Keeps.occurNat s _ _

/-- A run of bytes arrives; the channels are kept in BYPASS. -/
theorem arriveRun_keeps (hl : x .links) (hm : ¬x .mode) (hx : s.line.mode = .bypass ∨ x .channels) (p : Port)
    (bytes : List Byte) : Keeps x s (arriveRun p bytes s) :=
  List.foldlRecOn (motive := Keeps x s) _ _ (Keeps.refl s) fun t h b _ =>
    h.trans (arrive_keeps t hl hm (hx.imp_left (h.bypass hm)) p b)

/-! ## The transmitters -/

theorem beginField_keeps (f : Frame) : Keeps x s (beginField f s) :=
  Keeps.lineSame _ (fun k => { k with }) ⟨rfl, rfl⟩ ⟨rfl, rfl⟩ ⟨rfl, rfl⟩
    (fun _ r => ⟨r.forward, r.downstream, r.injections⟩) ⟨rfl, rfl⟩

theorem serveField_keeps (hm : ¬x .mode) (n : Nat) : ∀ s : State, s.line.mode ≠ .bypass →
    Keeps x s (serveField n s) := by
  induction n with
  | zero => exact fun s _ => Keeps.refl s
  | succ n ih =>
    intro s m
    have out : ∀ t : State, Keeps x s t → Keeps x s (serveField n t) := fun t h => h.trans (ih t (h.notBypass hm m))
    unfold serveField
    split
    · next i rest h =>
      have injected : Keeps x s (s.setLine { s.line with injections := rest }) :=
        Keeps.lineSame _ (fun k => { k with
            injections := (by rw [h]; simp : rest.length ≤ s.line.injections.length).trans k.injections })
          ⟨rfl, rfl⟩ ⟨rfl, rfl⟩ ⟨rfl, rfl⟩ (fun b => absurd b m) ⟨rfl, rfl⟩
      exact (injected.trans (beginInjection_keeps _ (injected.notBypass hm m) i)).trans (beginField_keeps _ _)
    · next f rest _ h =>
      have taken : Keeps x s (s.setLine { s.line with downstream := rest }) :=
        Keeps.lineSame _ (fun k => { k with
            downstream := (by rw [h]; simp : rest.length ≤ s.line.downstream.length).trans k.downstream })
          ⟨rfl, rfl⟩ ⟨rfl, rfl⟩ ⟨rfl, rfl⟩ (fun b => absurd b m) ⟨rfl, rfl⟩
      have governed := taken.trans (govern_keeps _ (taken.notBypass hm m) f)
      split
      · next g s1 e => rw [e] at governed; exact governed.trans (beginField_keeps _ _)
      · next s1 e => rw [e] at governed; exact out s1 governed
    · exact Keeps.refl s

theorem beginCab_keeps (hx : x .waits) {c : CabClaim} (h : cabClaim s = some c) : Keeps x s (beginCab c s) := by
  have ofRecord : ∀ f rest, s.line.records = f :: rest → Keeps x s (beginCab (.record f rest) s) := fun f rest e =>
    (Keeps.line { s.line with records := rest, forwardedRun := 0, cabOut := some f }
      (fun k => { k with
        forwardedRun := Nat.zero_le _
        records := (by rw [e]; simp : rest.length ≤ s.line.records.length).trans k.records })
      (fun _ => ⟨rfl, rfl⟩) ⟨rfl, rfl⟩ (fun _ => .inl rfl) id (fun _ _ => .quiet rfl rfl rfl rfl rfl rfl) (absurd hx)).trans
      ((admitRecords_admits _ _).keeps hx)
  have ofForward : ∀ f rest, s.line.forward = f :: rest → Keeps x s (beginCab (.forwarded f rest) s) := fun f rest e =>
    Keeps.lineSame _ (fun k => { k with
        forward := (by rw [e]; simp : rest.length ≤ s.line.forward.length).trans k.forward
        forwardedRun := Nat.min_le_left _ _ })
      ⟨rfl, rfl⟩ ⟨rfl, rfl⟩ ⟨rfl, rfl⟩ (fun _ r => by rw [r.forward] at e; cases e) ⟨rfl, rfl⟩
  unfold cabClaim at h
  split at h
  · cases h
    exact Keeps.lineSame _ (fun k => { k with }) ⟨rfl, rfl⟩ ⟨rfl, rfl⟩ ⟨rfl, rfl⟩
      (fun _ r => ⟨r.forward, r.downstream, r.injections⟩) ⟨rfl, rfl⟩
  · next e _ => cases h; exact ofForward _ _ e
  · next e e' =>
    split at h <;> cases h
    · exact ofForward _ _ e
    · exact ofRecord _ _ e'
  · next e => cases h; exact ofRecord _ _ e
  · cases h

end

end Sys2Proof.Machine

/-! # What requests, activations and the steps of a job keep -/

namespace Sys2Proof.Machine

/-! ## Requests -/

/-- What holds after the decoder's turn, whatever becomes of the request at the head (R20, R21). -/
theorem takeRequest_elim {P : State → Prop} {kind countFits : Nat → Bool} {whileEnding : Bool}
    {body : Frame → State → State × Option Reply} {s : State} (same : P s)
    (refused : ∀ f rest r, s.line.requests = f :: rest → P (placeResponse (responseFrame f.tag f.values r) (taken rest s)))
    (carried : ∀ f rest, s.line.requests = f :: rest → (s.bill.job ≠ .ending ∨ whileEnding = true) →
      P (body f (taken rest s)).1 ∧ ∀ g, P (placeResponse g (body f (taken rest s)).1)) :
    P (takeRequest kind countFits whileEnding body s) := by
  unfold takeRequest
  split
  · exact same
  · next f rest e =>
    have free : P (match body f (taken rest s) with
        | (s2, some r) => placeResponse (responseFrame f.tag f.values r) s2
        | (s2, none) => s2) ∨ (s.bill.job = .ending ∧ whileEnding = false) := by
      by_cases h : s.bill.job = .ending ∧ whileEnding = false
      · exact .inr h
      · have c := carried f rest e (by
          rw [not_and_or, Bool.not_eq_false] at h
          exact h)
        refine .inl ?_
        split
        · next s2 r k => rw [k] at c; exact c.2 _
        · next s2 k => rw [k] at c; exact c.1
    refine iteInduction (fun _ => ?_) fun _ => same
    refine iteInduction (fun _ => refused f rest _ e) fun _ => ?_
    refine iteInduction (fun _ => refused f rest _ e) fun h => free.resolve_right h

section
variable {x : Part → Prop} (s : State)

theorem taken_keeps {f : Frame} {rest : List Frame} (e : s.line.requests = f :: rest) : Keeps x s (taken rest s) :=
  Keeps.lineSame _ (fun k => { k with
      requests := (by rw [e]; simp : rest.length ≤ s.line.requests.length).trans k.requests })
    ⟨rfl, rfl⟩ ⟨rfl, rfl⟩ ⟨rfl, rfl⟩ (fun _ r => ⟨r.forward, r.downstream, r.injections⟩) ⟨rfl, rfl⟩

theorem placeResponse_keeps (f : Frame) : Keeps x s (placeResponse f s) :=
  Keeps.lineSame _ (fun k => { k with }) ⟨rfl, rfl⟩ ⟨rfl, rfl⟩ ⟨rfl, rfl⟩
    (fun _ r => ⟨r.forward, r.downstream, r.injections⟩) ⟨rfl, rfl⟩

theorem takeRequest_keeps (kind countFits : Nat → Bool) (whileEnding : Bool)
    (body : Frame → State → State × Option Reply) (h : ∀ f t, Keeps x t (body f t).1) :
    Keeps x s (takeRequest kind countFits whileEnding body s) :=
  takeRequest_elim (Keeps.refl s) (fun _ _ _ e => (taken_keeps s e).trans (placeResponse_keeps _ _))
    fun f _ e _ =>
      have b := (taken_keeps (x := x) s e).trans (h f _)
      ⟨b, fun _ => b.trans (placeResponse_keeps _ _)⟩

/-! ## Tables -/

/-- Writing the tables; the sums stand on the active RODCLASS. -/
theorem Keeps.tablesWritten (v : Vector Table 9) (hx : x .tables)
    (c : ¬x .rods → activeCopy (s.setTables v) tRodclass = activeCopy s tRodclass) : Keeps x s (s.setTables v) :=
  { Keeps.refl s with
    out := id
    rest := fun _ _ => AtRest.same rfl rfl rfl rfl
    fits := Fits.same rfl rfl rfl rfl rfl
    waits := fun _ => Waits.same rfl rfl rfl id rfl
    conds := fun _ _ _ _ => rfl
    tables := absurd hx
    job := fun _ => ⟨rfl, rfl, rfl, rfl, rfl, rfl, rfl, rfl⟩
    rodLaw := fun _ => RodLaw.same rfl rfl rfl
    sums := fun hx _ => SumsLaw.same rfl rfl rfl rfl rfl (c hx) }

theorem activeCopy_setTables_set (n m : TableNo) (y : Table) :
    activeCopy (s.setTables (s.tables.set n y)) m = if n = m then y.active else activeCopy s m := by
  show (s.tables.set n y)[m].active = _
  rw [Fin.getElem_fin, Vector.getElem_set]
  simp only [Fin.ext_iff]
  split <;> rfl

theorem activateTable_keeps (n : TableNo) (hx : x .tables) (h : n ≠ tRodclass ∨ x .rods) : Keeps x s (activateTable n s) :=
  Keeps.tablesWritten s _ hx fun hr => by rw [activeCopy_setTables_set, if_neg (h.resolve_right hr)]

theorem loadBody_keeps (f : Frame) (hx : x .tables) : Keeps x s (loadBody f s).1 := by
  unfold loadBody
  split
  · exact Keeps.refl s
  · next n _ =>
    rw [apply_ite Prod.fst, apply_ite Prod.fst]
    refine Keeps.ite (Keeps.refl s) (Keeps.ite (Keeps.refl s) (Keeps.tablesWritten s _ hx fun _ => ?_))
    rw [activeCopy_setTables_set]
    split
    · next h => rw [← h]; rfl
    · rfl

theorem activationNotice_keepsDue (k : AlarmClass) : KeepsDue s (activationNoticeWith raise k s) := by
  unfold activationNoticeWith
  split
  · exact (stopPumpWith_keepsDue raise_keepsDue _ s).trans (stopPumpWith_keepsDue raise_keepsDue _ _)
  · exact fun _ h => h

theorem classReroute_keeps (before : ClassState) (k : AlarmClass) (now : ClassState) :
    Keeps x s (classReroute before k now s) := by
  have due := Keeps.statusDue (x := x) s .cls
  refine Keeps.ite (Keeps.refl s) (due.trans (Keeps.ite ?_ (Keeps.refl _)))
  exact (activationNoticeWith_eventOnly raise_eventOnly k _).keeps (activationNoticeWith_keepsPending raise_keepsPending k _)
    (activationNotice_keepsDue _ k) fun _ _ q _ => activationNoticeWith_cond raise_cond k _ q

theorem routeActivated_keeps : Keeps x s (routeActivated s) := by
  have written : Keeps x s (s.setEvent { s.event with classes := Vector.ofFn fun k => recomputedClass s k }) :=
    { Keeps.refl s with
      out := id
      rest := fun _ _ => AtRest.same rfl rfl rfl rfl
      fits := fun f => { f with }
      waits := fun _ =>
        { Waits.refl s with }
      conds := fun _ _ _ _ => rfl
      job := fun _ => ⟨rfl, rfl, rfl, rfl, rfl, rfl, rfl, rfl⟩
      rodLaw := fun _ => RodLaw.same rfl rfl rfl
      sums := fun _ _ => SumsLaw.same rfl rfl rfl rfl rfl rfl }
  exact List.foldlRecOn (motive := Keeps x s) _ _ written fun t h k _ => h.trans (classReroute_keeps t _ k _)

/-- The status period timer starts again. -/
theorem statusTimer_keeps (n : Nat) : Keeps x s (s.setLine { s.line with statusTimerStart := n }) :=
  Keeps.lineSame _ (fun k => { k with }) ⟨rfl, rfl⟩ ⟨rfl, rfl⟩ ⟨rfl, rfl⟩
    (fun _ r => ⟨r.forward, r.downstream, r.injections⟩) ⟨rfl, rfl⟩

theorem settingsActivated_keeps : Keeps x s (settingsActivated s) := by
  have k := ((depthSettings_keeps (x := x) s).trans (recomputeFlow_keeps _)).trans (pumpingChanged_keeps _)
  exact k.trans (statusTimer_keeps _ _)

theorem applyTable_keeps (n : TableNo) (old : List Page) (hx : x .channels) : Keeps x s (applyTable n old s) := by
  unfold applyTable
  split
  · exact channelActivated_keeps s hx old
  · exact routeActivated_keeps s
  · exact refindSegment_keeps s
  · exact rodclassActivated_keeps s
  · exact settingsActivated_keeps s
  · exact Keeps.refl s

/-- An activation of RODCLASS computes the sums anew, whatever they were (R65). -/
theorem rodclassActivated_sums (l : RodLaw s) : SumsLaw (rodclassActivated s) := by
  have r := (recomputeSums_keeps (x := fun _ => False) s).rodLaw id l
  exact ((recomputeFatigue_keeps (x := fun _ => False) _).trans (stringChange_keeps _)).sums id r (recomputeSums_sums s)

/-- An ACTIVATE that is carried out: RODCLASS brings new sums (R65, R195). -/
theorem activated_keeps (n : TableNo) (old : List Page) (ht : x .tables) (hc : x .channels) :
    Keeps x s (applyTable n old (activateTable n s)) := by
  by_cases h : n = tRodclass
  · subst h
    have law : RodLaw s → RodLaw (activateTable tRodclass s) := RodLaw.same rfl rfl rfl
    refine Keeps.withRods (Keeps.trans (t := activateTable tRodclass s) ?_ (applyTable_keeps _ _ _ (.inl hc)))
      (fun l => (rodclassActivated_keeps (x := fun _ => False) _).rodLaw id (law l))
      fun l _ => rodclassActivated_sums _ (law l)
    exact activateTable_keeps s _ (.inl ht) (.inr (.inr rfl))
  · exact (activateTable_keeps s n ht (.inl h)).trans (applyTable_keeps _ n old hc)

theorem activateBody_keeps (f : Frame) (ht : x .tables) (hc : x .channels) (hj : x .job) :
    Keeps x s (activateBody f s).1 := by
  unfold activateBody
  split
  · exact Keeps.refl s
  · next n _ =>
    split
    · exact Keeps.refl s
    · rw [apply_ite Prod.fst]
      exact Keeps.ite (Keeps.bill s _ rfl (absurd hj)) (activated_keeps s n _ ht hc)

/-! ## MODE, BASELINE, ADDITION, DOWNTIME, ACK_CLASS, FLUSH_LAG, STATUS -/

theorem leaveBypass_keeps (m : LineMode) (hm : x .mode) : Keeps x s (leaveBypass m s) :=
  ((setMode_keeps s m (.inl hm)).trans (pitLeaveBypass_keeps _)).trans (recomputeCandidate_keeps _)

theorem changeMode_keeps (m : LineMode) (hm : x .mode) (hc : x .channels) : Keeps x s (changeMode m s) := by
  unfold changeMode
  split
  · exact enterBypass_keeps s hm hc
  · exact Keeps.ite (leaveBypass_keeps s _ hm) (changeInLine_keeps s _ (.inl hm))

theorem modeBody_keeps (f : Frame) (hm : x .mode) (hc : x .channels) : Keeps x s (modeBody f s).1 := by
  unfold modeBody
  split
  · exact Keeps.refl s
  · next m _ =>
    rw [apply_ite Prod.fst, apply_ite Prod.fst]
    refine Keeps.ite (Keeps.refl s) (Keeps.ite (Keeps.refl s) ?_)
    split
    · exact Keeps.refl s
    · exact changeMode_keeps s m hm hc

theorem baselineBody_keeps (f : Frame) : Keeps x s (baselineBody f s).1 := by
  unfold baselineBody
  split
  · exact Keeps.refl s
  · exact Keeps.refl s
  · exact pitBaseline_keeps s _

theorem additionBody_keeps (f : Frame) : Keeps x s (additionBody f s).1 := by
  rw [additionBody, apply_ite Prod.fst, apply_ite Prod.fst, apply_ite Prod.fst]
  exact Keeps.ite (Keeps.refl s) (Keeps.ite (Keeps.refl s) (Keeps.ite (Keeps.refl s) (pitAdjustment_keeps s _)))

theorem downtimeBody_keeps (f : Frame) : Keeps x s (downtimeBody f s).1 := by
  unfold downtimeBody
  split
  · exact Keeps.refl s
  · exact (Keeps.depthSame s _ (by rfl) (by rfl) (by rfl) (by rfl) (by rfl) (by rfl)).trans (recomputeCandidate_keeps _)

/-- Writing the classes. -/
theorem setClass_keeps (k : AlarmClass) (c : ClassState) : Keeps x s (setClass k c s) :=
  { Keeps.refl s with
    out := id
    rest := fun _ _ => AtRest.same rfl rfl rfl rfl
    fits := fun f => { f with }
    waits := fun _ => { Waits.refl s with }
    conds := fun _ _ _ _ => rfl
    job := fun _ => ⟨rfl, rfl, rfl, rfl, rfl, rfl, rfl, rfl⟩
    rodLaw := fun _ => RodLaw.same rfl rfl rfl
    sums := fun _ _ => SumsLaw.same rfl rfl rfl rfl rfl rfl }

theorem ackClassBody_keeps (f : Frame) : Keeps x s (ackClassBody f s).1 := by
  unfold ackClassBody
  split
  · exact Keeps.refl s
  · exact Keeps.ite (Keeps.refl s) ((setClass_keeps s _ _).trans (Keeps.statusDue _ _))

theorem flushLagBody_keeps (f : Frame) : Keeps x s (flushLagBody f s).1 := lagFlush_keeps s

theorem statusBody_keeps (f : Frame) : Keeps x s (statusBody f s).1 := Keeps.statusDue s _

/-! ## MARK, and the second step -/

theorem markBody_keeps (f : Frame) : Keeps x s (markBody f s).1 := by
  have noted : Keeps x s (writeNote (f.val 0) s) := Keeps.interval s _ fun _ => Option.isSome_map
  rw [markBody, apply_ite Prod.fst, apply_ite Prod.fst, apply_ite Prod.fst]
  exact Keeps.ite (Keeps.refl s) (Keeps.ite (Keeps.refl s)
    (Keeps.ite (noted.trans (closeInterval_keeps _ _ _ (.inl (by decide)))) noted))

theorem clockStep_keeps : Keeps x s (clockStep s) :=
  Keeps.ite ((Keeps.depthSame s { s.depth with jobClock := s.depth.jobClock + 1 } rfl rfl rfl rfl rfl rfl).trans
    (billSecond_keeps _ _)) (Keeps.refl s)

theorem secondStep_keeps : Keeps x s (secondStep s) := by
  have tick : Keeps x s (s.setDepth { s.depth with secondStart := s.depth.secondStart + 1000 }) :=
    Keeps.depthSame s _ rfl rfl rfl rfl rfl rfl
  exact (tick.trans (clockStep_keeps _)).trans (recomputeCandidate_keeps _)

/-! ## JOB_START -/

theorem depthJobStart_keeps (hole : Nat) (hs : x .start) (hj : x .job) : Keeps x s (depthJobStart hole s) :=
  Keeps.depth s (depthJobStart hole s).depth (absurd hs) (fun _ => recomputeBits_bit _) (absurd hj)
    fun _ _ r => ⟨r.activity, r.candidate, r.dwell⟩

theorem openJob_keeps (number hole ticket : Nat) (hj : x .job) : Keeps x s (openJob number hole ticket s) :=
  (clearLines_keeps s).trans (Keeps.bill _ _ (by rfl) (absurd hj))

theorem openFirstInterval_keeps (number hole : Nat) (hj : x .job) : Keeps x s (openFirstInterval number hole s) :=
  (Keeps.interval s _ (absurd hj)).trans (openInterval_keeps _ _ _ hj)

/-- A JOB_START that is carried out (R150). -/
def startJob (f : Frame) (s : State) : State :=
  recomputeCandidate (refindSegment (openFirstInterval (f.val32 4) (f.val32 1)
    (openJob (f.val 0) (f.val32 1) (f.val 3) (depthJobStart (f.val32 1) s))))

/-- A JOB_START is refused, or carried out (R150). -/
theorem jobStartBody_state (f : Frame) (s : State) :
    (jobStartBody f s).1 = s ∨ (s.bill.job ≠ .opened ∧ (jobStartBody f s).1 = startJob f s) := by
  unfold jobStartBody
  split
  · exact .inl rfl
  · next h =>
    split
    · exact .inl rfl
    · split
      · exact .inl rfl
      · exact .inr ⟨h, rfl⟩

theorem startJob_keeps (f : Frame) (hs : x .start) (hj : x .job) : Keeps x s (startJob f s) :=
  ((((depthJobStart_keeps s _ hs hj).trans (openJob_keeps _ _ _ _ hj)).trans (openFirstInterval_keeps _ _ _ hj)).trans
    (refindSegment_keeps _)).trans (recomputeCandidate_keeps _)

theorem jobStartBody_keeps (f : Frame) (hs : x .start) (hj : x .job) : Keeps x s (jobStartBody f s).1 := by
  rcases jobStartBody_state f s with h | ⟨-, h⟩ <;> rw [h]
  · exact Keeps.refl s
  · exact startJob_keeps s f hs hj

/-! ## A ticket that is frozen (R161, R162) -/

theorem lineFrames_length (l : List (TicketLine × Nat)) : (lineFrames l).length = (l.length + 1) / 2 := by
  induction l using lineFrames.induct with
  | case1 a b rest ih => simp only [lineFrames, List.length_cons, ih]; omega
  | case2 a => simp [lineFrames]
  | case3 => rfl

/-- A ticket's record has at most 24 frames: 44 lines, two to a frame, and two frames before them (R7). -/
theorem ticketRecord_length (final : Bool) (s : State) :
    2 ≤ (ticketRecord final s).frames.length ∧ (ticketRecord final s).frames.length ≤ 24 := by
  have few : (carriedLines s).length ≤ 44 := by
    have h := List.length_filter_le (fun l : TicketLine × Nat => decide (0 < l.1.quantity)) s.bill.lines.toList.zipIdx
    simpa [carriedLines] using h
  have n : (ticketRecord final s).frames.length = 2 + ((carriedLines s).length + 1) / 2 := by
    simp only [ticketRecord, List.length_cons, lineFrames_length]; omega
  omega

/-- The open ticket is frozen into an out-buffer that holds none. -/
theorem snapshot_keeps (final : Bool) (free : s.bill.outBuffer = none) : Keeps x s (snapshot final s) :=
  { Keeps.refl s with
    out := id
    rest := fun _ _ => AtRest.same rfl rfl rfl rfl
    fits := fun f => { f with
      ticket := fun r e => by cases e; exact ⟨rfl, ticketRecord_length final s⟩ }
    waits := fun _ => { Waits.refl s with
      ticket := fun r e => by rw [free] at e; cases e }
    conds := fun _ _ _ _ => rfl
    job := fun _ => ⟨rfl, rfl, rfl, rfl, rfl, rfl, rfl, rfl⟩
    rodLaw := fun _ => RodLaw.same rfl rfl rfl
    sums := fun _ _ => SumsLaw.same rfl rfl rfl rfl rfl rfl }

theorem applyDeferred_keeps (ht : x .tables) (hj : x .job) : Keeps x s (applyDeferred s) := by
  refine Keeps.ite ?_ (Keeps.refl s)
  exact ((activateTable_keeps s tTariff ht (.inl (by decide))).trans
    (Keeps.bill _ { s.bill with deferred := false } (by rfl) (absurd hj))).trans (Keeps.occurNat _ _ _)

end

/-! ## What a close touches (R117, R141, R156) -/

/-- Only the event unit's share, the interval, the lag unit and the ticket's lines and last interval differ. -/
def ByClose (s t : State) : Prop :=
  t = { s with
    event := t.event, interval := t.interval, lag := t.lag
    bill := { s.bill with lines := t.bill.lines, lastInterval := t.bill.lastInterval }
    line := { s.line with statusDue := t.line.statusDue, injections := t.line.injections } }

section
variable {s t : State} (h : ByClose s t)
include h

theorem ByClose.depth : t.depth = s.depth := by rw [h]

theorem ByClose.rod : t.rod = s.rod := by rw [h]

theorem ByClose.circ : t.circ = s.circ := by rw [h]

theorem ByClose.channels : t.channels = s.channels := by rw [h]

theorem ByClose.gov : t.gov = s.gov := by rw [h]

theorem ByClose.tables : t.tables = s.tables := by rw [h]

theorem ByClose.bill : t.bill = { s.bill with lines := t.bill.lines, lastInterval := t.bill.lastInterval } := by rw [h]

theorem ByClose.outBuffer : t.bill.outBuffer = s.bill.outBuffer := by rw [h]

theorem ByClose.line : t.line = { s.line with statusDue := t.line.statusDue, injections := t.line.injections } := by
  rw [h]

end

theorem ByClose.refl (s : State) : ByClose s s := rfl

theorem ByClose.trans {s t u : State} (h : ByClose s t) (k : ByClose t u) : ByClose s u := by
  unfold ByClose at *
  refine k.trans ?_
  rw [h]

theorem EventOnly.byClose {s t : State} (h : EventOnly s t) : ByClose s t := by
  unfold ByClose
  refine h.same.trans ?_
  rw [h.interval, h.lag, h.bill]

section
variable (s : State)

theorem accrue_byClose (key q r : Nat) : ByClose s (accrue key q r s) := by
  unfold accrue
  split <;> rfl

theorem billInterval_byClose (n : BillingNotice) : ByClose s (billInterval n s) := by
  unfold billInterval
  refine iteInduction (fun _ => ?_) fun _ => rfl
  refine ByClose.trans (iteInduction (fun _ => ?_) fun _ => accrue_byClose s _ _ _) rfl
  exact (accrue_byClose s _ _ _).trans (accrue_byClose _ _ _ _)

theorem occurNat_byClose (src : Source) (n : Nat) : ByClose s (occurNat src n s) := (occurNat_eventOnly src n s).byClose

theorem releaseUnlagged_byClose (r : Strata) : ByClose s (releaseUnlagged r s) :=
  iteInduction (fun _ => rfl) fun _ => occurNat_byClose s _ _

theorem profileEnd_byClose (pages : List Page) (b : Nat) : ByClose s (profileEnd pages b s) :=
  iteInduction (fun _ => occurNat_byClose s _ _) fun _ => rfl

theorem lagTake_byClose (r : Strata) : ByClose s (lagTake r s) := by
  unfold lagTake
  split
  · exact releaseUnlagged_byClose s r
  · next pages _ =>
    refine (profileEnd_byClose s pages r.bottom).trans (iteInduction (fun _ => rfl) fun _ => ?_)
    exact (occurNat_byClose _ _ _).trans (releaseUnlagged_byClose _ _)

theorem classifyClose_byClose (o : OpenInterval) (r : Strata) : ByClose s (classifyClose o r s) := by
  unfold classifyClose
  split
  · rfl
  · exact occurNat_byClose s _ _

theorem closed_byClose (o : OpenInterval) (t : Trigger) (bottom : Nat) : ByClose s (closed o t bottom s) :=
  ((classifyClose_byClose s o (buildStrata o t bottom (jobTime s))).trans
    (u := countClosed (classifyClose o (buildStrata o t bottom (jobTime s)) s)) rfl).trans
    ((lagTake_byClose _ _).trans (billInterval_byClose _ _))

theorem closeInterval_byClose (t : Trigger) (bottom : Nat) : ByClose s (closeInterval t bottom s) := by
  cases e : s.interval.current with
  | none => unfold closeInterval; rw [e]; rfl
  | some o =>
    rw [closeInterval_some s e]
    exact iteInduction (fun _ => closed_byClose s o t bottom) fun _ => (closed_byClose s o t bottom).trans rfl

theorem shiftCut_byClose : ByClose s (shiftCut s) :=
  iteInduction (fun _ => closeInterval_byClose s _ _) fun _ => rfl

theorem endCut_byClose : ByClose s (endCut s) :=
  iteInduction (fun _ => closeInterval_byClose s _ _) fun _ => rfl

/-- No interval is open after the end cut (R140). -/
theorem endCut_current : (endCut s).interval.current = none := by
  unfold endCut
  split
  · cases e : s.interval.current with
    | none => unfold closeInterval; rw [e]; exact e
    | some o =>
      rw [closeInterval_some s e, if_pos rfl]
      have := (closed_job s o .theEnd s.depth.hole).interval
      simpa using this
  · rfl

end

/-! ## SHIFT_CLOSE, JOB_END and its completion -/

/-- A SHIFT_CLOSE that is carried out (R163). -/
def closeShift (s : State) : State := nextTicket (applyDeferred (snapshot false (shiftCut s)))

/-- A SHIFT_CLOSE is refused, or carried out (R163). -/
theorem shiftCloseBody_state (f : Frame) (s : State) :
    (shiftCloseBody f s).1 = s ∨
      (s.bill.job ≠ .noJob ∧ s.bill.outBuffer = none ∧ (shiftCloseBody f s).1 = closeShift s) := by
  unfold shiftCloseBody
  split
  · exact .inl rfl
  · next job =>
    split
    · exact .inl rfl
    · next free => exact .inr ⟨job, by simpa using free, rfl⟩

theorem jobEndFault_none {force : Nat} {s : State} (h : jobEndFault force s = none) :
    s.bill.job ≠ .noJob ∧ force ≤ 1 ∧ s.bill.outBuffer = none ∧ ¬(s.rod.string ≠ [] ∧ force = 0) := by
  unfold jobEndFault at h
  split at h
  · cases h
  · next job =>
    split at h
    · cases h
    · next value =>
      split at h
      · cases h
      · next free =>
        split at h
        · cases h
        · next string => exact ⟨job, by omega, by simpa using free, string⟩

/-- A JOB_END is refused, or carried out (R151). -/
theorem jobEndBody_state (f : Frame) (s : State) :
    (jobEndBody f s).1 = s ∨ (s.bill.job ≠ .noJob ∧ s.bill.outBuffer = none ∧ (jobEndBody f s).1 = endJob s) := by
  unfold jobEndBody
  split
  · exact .inl rfl
  · next h =>
    obtain ⟨job, -, free, -⟩ := jobEndFault_none h
    exact .inr ⟨job, free, rfl⟩

/-- The state of a JOB_END whose interval has been cut (R140, R151). -/
def endingCut (s : State) : State := endCut (s.setBill { s.bill with job := .ending })


section
variable {x : Part → Prop} (s : State)

theorem closeShift_keeps (ht : x .tables) (hj : x .job) (free : s.bill.outBuffer = none) : Keeps x s (closeShift s) := by
  have cut := shiftCut_keeps (x := x) s
  have frozen := cut.trans (snapshot_keeps _ false ((shiftCut_byClose s).outBuffer.trans free))
  exact (frozen.trans (applyDeferred_keeps _ ht hj)).trans (Keeps.bill _ _ (by rfl) (absurd hj))

theorem shiftCloseBody_keeps (f : Frame) (ht : x .tables) (hj : x .job) : Keeps x s (shiftCloseBody f s).1 := by
  rcases shiftCloseBody_state f s with h | ⟨-, free, h⟩ <;> rw [h]
  · exact Keeps.refl s
  · exact closeShift_keeps s ht hj free

theorem jobEndFlush_keeps : Keeps x s (jobEndFlush s) :=
  ((lagFlush_keeps s).trans (Keeps.lag _ { (lagFlush s).lag with flushWatch := true } id id fun _ w => w)).trans
    (flushCompletion_keeps _)

theorem endJob_keeps (ht : x .tables) (hj : x .job) (free : s.bill.outBuffer = none) : Keeps x s (endJob s) := by
  have ending : Keeps x s (s.setBill { s.bill with job := .ending }) := Keeps.bill s _ rfl (absurd hj)
  have cut := ending.trans (endCut_keeps _ hj)
  have frozen := cut.trans (snapshot_keeps _ true ((endCut_byClose _).outBuffer.trans free))
  have begun := (frozen.trans (applyDeferred_keeps _ ht hj)).trans
    (Keeps.bill _ (beginEnding s.depth.hole (applyDeferred (snapshot true (endingCut s)))).bill (by rfl) (absurd hj))
  exact begun.trans (jobEndFlush_keeps _)

theorem jobEndBody_keeps (f : Frame) (ht : x .tables) (hj : x .job) : Keeps x s (jobEndBody f s).1 := by
  rcases jobEndBody_state f s with h | ⟨-, free, h⟩ <;> rw [h]
  · exact Keeps.refl s
  · exact endJob_keeps s ht hj free

theorem completeJobEnd_keeps (w : EndingWatch) (hj : x .job) : Keeps x s (completeJobEnd w s) := by
  have finished : Keeps x s (s.setBill { s.bill with job := .noJob }) := Keeps.bill s _ rfl (absurd hj)
  have stopped := finished.trans (Keeps.depth _ { s.depth with clockRuns := false } (fun _ => Nat.le_refl _) id (absurd hj)
    fun _ _ r => ⟨r.activity, r.candidate, r.dwell⟩)
  have cleared := ((stopped.trans (intervalClear_keeps _ hj)).trans (pitJobEnd_keeps _)).trans (clearLines_keeps _)
  have closed := cleared.trans (Keeps.bill _ (completeJobEnd w s).bill (by rfl) (absurd hj))
  exact closed.trans (Keeps.lineSame _ (fun k => { k with }) ⟨rfl, rfl⟩ ⟨rfl, rfl⟩ ⟨rfl, rfl⟩
    (fun _ r => ⟨r.forward, r.downstream, r.injections⟩) ⟨rfl, rfl⟩)

end

end Sys2Proof.Machine

/-! # What every command keeps -/

namespace Sys2Proof.Machine

/-! ## Producers that begin to wait -/

/-- What decides which producers wait is the same. -/
structure SameWaits (s t : State) : Prop where
  rod : t.rod.out = s.rod.out
  ticket : t.bill.outBuffer = s.bill.outBuffer
  lag : t.lag = s.lag
  event : t.event = s.event
  due : t.line.statusDue = s.line.statusDue

theorem SameWaits.refl (s : State) : SameWaits s s := ⟨rfl, rfl, rfl, rfl, rfl⟩

theorem SameWaits.isWaiting {s t : State} (h : SameWaits s t) (p : Producer) : isWaiting t p = isWaiting s p := by
  unfold Machine.isWaiting
  cases p with
  | rod => simp only [offeredRecord, h.rod]
  | ticket => simp only [offeredRecord, h.ticket]
  | strata => simp only [offeredRecord, h.lag]
  | event => simp only [offeredRecord, lowestPending, h.event, Option.isSome_map]
  | status => simp only [offeredRecord, h.due, Option.isSome_map]

/-- A request whose own rule leaves the offers as they are. -/
theorem takeRequest_sameWaits {kind countFits : Nat → Bool} {whileEnding : Bool}
    {body : Frame → State → State × Option Reply} {s : State} (h : ∀ f t, SameWaits t (body f t).1) :
    SameWaits s (takeRequest kind countFits whileEnding body s) :=
  takeRequest_elim (SameWaits.refl s) (fun _ _ _ _ => ⟨rfl, rfl, rfl, rfl, rfl⟩) fun f rest _ _ =>
    have ⟨a, b, c, d, e⟩ := h f (taken rest s)
    ⟨⟨a, b, c, d, e⟩, fun _ => ⟨a, b, c, d, e⟩⟩

section
variable (f : Frame) (s : State)

theorem loadBody_sameWaits : SameWaits s (loadBody f s).1 := by
  unfold loadBody
  split
  · exact SameWaits.refl s
  · split
    · exact SameWaits.refl s
    · split <;> exact ⟨rfl, rfl, rfl, rfl, rfl⟩

theorem readTableBody_same : (readTableBody f s).1 = s := by
  unfold readTableBody
  split
  · rfl
  · split
    · rfl
    · split <;> rfl

theorem rackAddBody_sameWaits : SameWaits s (rackAddBody f s).1 := by
  unfold rackAddBody
  split
  · exact SameWaits.refl s
  · split
    · exact SameWaits.refl s
    · split <;> exact ⟨rfl, rfl, rfl, rfl, rfl⟩

theorem rackRemoveBody_sameWaits : SameWaits s (rackRemoveBody f s).1 := by
  unfold rackRemoveBody
  split
  · exact SameWaits.refl s
  · split <;> exact ⟨rfl, rfl, rfl, rfl, rfl⟩

theorem rodReadBody_same : (rodReadBody f s).1 = s := by
  unfold rodReadBody
  split <;> rfl

theorem stringLoadBody_sameWaits : SameWaits s (stringLoadBody f s).1 := by
  rw [stringLoadBody, apply_ite Prod.fst, apply_ite Prod.fst, apply_ite Prod.fst, apply_ite Prod.fst]
  refine iteInduction (fun _ => SameWaits.refl s) fun _ => iteInduction (fun _ => SameWaits.refl s) fun _ => ?_
  exact iteInduction (fun _ => iteInduction (fun _ => SameWaits.refl s) fun _ => ⟨rfl, rfl, rfl, rfl, rfl⟩)
    fun _ => ⟨rfl, rfl, rfl, rfl, rfl⟩

end

/-! ## How a command ends -/

/-- A command that has led from `s` to `u` ends in `t`: there, where no producer has begun to wait, or with the admission
of records (R23). -/
def Ends (s u t : State) : Prop :=
  (t = u ∧ ∀ p, isWaiting u p = true → isWaiting s p = true) ∨ t = admitted s u ∨ t = admittedJudged s u

/-- Where nothing is due, nothing happens. -/
theorem Ends.refl (s : State) : Ends s s s := .inl ⟨rfl, fun _ h => h⟩

theorem SameWaits.ends {s u : State} (h : SameWaits s u) : Ends s u u := .inl ⟨rfl, fun p e => by rwa [h.isWaiting p] at e⟩

theorem Ends.admitted (s u : State) : Ends s u (admitted s u) := .inr (.inl rfl)

theorem Ends.judged (s u : State) : Ends s u (admittedJudged s u) := .inr (.inr rfl)

/-- What a command is exempt from keeping before records are admitted at its end. -/
def exempt (s : State) (i : Instr) (p : Part) : Prop :=
  match i with
  | .frameArrival _ _ | .shortFrame _ _ => p = .links ∨ (p = .channels ∧ s.line.mode ≠ .bypass)
  | .linkDown _ => p = .links
  | .channelStale _ | .channelLost _ | .settleExpiry _ => p = .channels
  | .mode => p = .mode ∨ p = .channels
  | .load => p = .tables
  | .activate => p = .tables ∨ p = .channels ∨ p = .job
  | .jobStart => p = .job ∨ p = .start
  | .jobEnd | .shiftClose => p = .job ∨ p = .tables
  | .jobEndCompletion => p = .job
  | _ => False

theorem arriveRun_exempt (p : Port) (bytes : List Byte) (s : State) (x : Part → Prop)
    (hx : x = fun q => q = .links ∨ (q = .channels ∧ s.line.mode ≠ .bypass)) :
    Keeps x s (arriveRun p bytes (beginJudging s)) := by
  subst hx
  refine (Keeps.judged s (waiting s)).trans (arriveRun_keeps _ (.inl rfl) (by simp) ?_ p bytes)
  by_cases m : s.line.mode = .bypass
  · exact .inl m
  · exact .inr (.inr ⟨rfl, m⟩)

/-- What a command leads to before the admission at its end, and how it ends. The reset, the CAB transmitter, which takes
a frame from the record queue, and the admission by itself are apart. -/
theorem exec_ends {i : Instr} {s t : State} (h : exec i s = .next t) (reset : i ≠ .powerOnReset)
    (cab : i ≠ .cabTransmitBegin) (admission : i ≠ .recordAdmission) :
    ∃ u, Keeps (exempt s i) s u ∧ Ends s u t := by
  have due : ∀ {b : Prop} [Decidable b] {u : State}, exec i s = .next (if b then admitted s u else s) →
      (b → Keeps (exempt s i) s u) → ∃ u, Keeps (exempt s i) s u ∧ Ends s u t := by
    intro b _ u e k
    obtain rfl := Host.Outcome.next.inj (h.symm.trans e)
    split
    · next hb => exact ⟨u, k hb, Ends.admitted s u⟩
    · exact ⟨s, Keeps.refl s, Ends.refl s⟩
  have request : ∀ {kind countFits : Nat → Bool} {whileEnding : Bool} {body : Frame → State → State × Option Reply},
      exec i s = .next (admitted s (takeRequest kind countFits whileEnding body s)) →
      (∀ f t, Keeps (exempt s i) t (body f t).1) → ∃ u, Keeps (exempt s i) s u ∧ Ends s u t := by
    intro kind countFits whileEnding body e k
    obtain rfl := Host.Outcome.next.inj (h.symm.trans e)
    exact ⟨_, takeRequest_keeps s _ _ _ _ k, Ends.admitted s _⟩
  have plain : ∀ {kind countFits : Nat → Bool} {whileEnding : Bool} {body : Frame → State → State × Option Reply},
      exec i s = .next (takeRequest kind countFits whileEnding body s) →
      (∀ f t, Keeps (exempt s i) t (body f t).1) → (∀ f t, SameWaits t (body f t).1) →
      ∃ u, Keeps (exempt s i) s u ∧ Ends s u t := by
    intro kind countFits whileEnding body e k w
    obtain rfl := Host.Outcome.next.inj (h.symm.trans e)
    exact ⟨_, takeRequest_keeps s _ _ _ _ k, (takeRequest_sameWaits w).ends⟩
  cases i with
  | powerOnReset => exact absurd rfl reset
  | cabTransmitBegin => exact absurd rfl cab
  | recordAdmission => exact absurd rfl admission
  | frameArrival p bytes => exact ⟨_, arriveRun_exempt p bytes s _ rfl, Host.Outcome.next.inj h ▸ Ends.judged s _⟩
  | shortFrame p bytes => exact ⟨_, arriveRun_exempt p bytes s _ rfl, Host.Outcome.next.inj h ▸ Ends.judged s _⟩
  | linkDown p => exact due rfl (fun _ => fallDown_keeps s p rfl)
  | fieldTransmitBegin => exact due rfl (fun b => serveField_keeps id _ s b.2)
  | completionResponsePlaced =>
    obtain rfl := Host.Outcome.next.inj h
    refine ⟨_, ?_, SameWaits.ends ?_⟩ <;> split
    · exact Keeps.lineSame _ (fun k => { k with }) ⟨rfl, rfl⟩ ⟨rfl, rfl⟩ ⟨rfl, rfl⟩
        (fun _ r => ⟨r.forward, r.downstream, r.injections⟩) ⟨rfl, rfl⟩
    · exact Keeps.refl s
    · exact ⟨rfl, rfl, rfl, rfl, rfl⟩
    · exact SameWaits.refl s
  | statusPeriod => exact due rfl (fun _ => (statusTimer_keeps s _).trans (Keeps.statusDue _ _))
  | channelStale c => exact due rfl (fun _ => changeChannels_keeps (x := (· = .channels)) s rfl _ _)
  | channelLost c => exact due rfl (fun _ => changeChannels_keeps (x := (· = .channels)) s rfl _ _)
  | settleExpiry c =>
    obtain rfl := Host.Outcome.next.inj h
    refine ⟨_, ?_, SameWaits.ends ?_⟩ <;> split
    · exact setChannel_keeps s c _ rfl
    · exact Keeps.refl s
    · exact ⟨rfl, rfl, rfl, rfl, rfl⟩
    · exact SameWaits.refl s
  | secondStep => exact due rfl (fun _ => secondStep_keeps s)
  | dwellExpiry => exact ⟨_, expireDwell_keeps s, Host.Outcome.next.inj h ▸ Ends.admitted s _⟩
  | jobEndCompletion =>
    obtain rfl := Host.Outcome.next.inj h
    split
    · next w _ => exact ⟨_, completeJobEnd_keeps s w rfl, Ends.admitted s _⟩
    · exact ⟨s, Keeps.refl s, Ends.refl s⟩
  | mode => exact request rfl (fun f t => modeBody_keeps t f (.inl rfl) (.inr rfl))
  | load => exact plain rfl (fun f t => loadBody_keeps t f rfl) loadBody_sameWaits
  | activate => exact request rfl (fun f t => activateBody_keeps t f (.inl rfl) (.inr (.inl rfl)) (.inr (.inr rfl)))
  | readTable =>
    exact plain rfl (fun f t => by rw [readTableBody_same]; exact Keeps.refl t)
      (fun f t => by rw [readTableBody_same]; exact SameWaits.refl t)
  | rackAdd => exact plain rfl (fun f t => rackAddBody_keeps t f) rackAddBody_sameWaits
  | rackRemove => exact plain rfl (fun f t => rackRemoveBody_keeps t f) rackRemoveBody_sameWaits
  | rodRead =>
    exact plain rfl (fun f t => by rw [rodReadBody_same]; exact Keeps.refl t)
      (fun f t => by rw [rodReadBody_same]; exact SameWaits.refl t)
  | stringLoad => exact plain rfl (fun f t => stringLoadBody_keeps t f) stringLoadBody_sameWaits
  | stringCommit => exact request rfl (fun f t => stringCommitBody_keeps t f)
  | jobStart => exact request rfl (fun f t => jobStartBody_keeps t f (.inr rfl) (.inl rfl))
  | jobEnd => exact request rfl (fun f t => jobEndBody_keeps t f (.inr rfl) (.inl rfl))
  | shiftClose => exact request rfl (fun f t => shiftCloseBody_keeps t f (.inr rfl) (.inl rfl))
  | mark => exact request rfl (fun f t => markBody_keeps t f)
  | baseline => exact request rfl (fun f t => baselineBody_keeps t f)
  | addition => exact request rfl (fun f t => additionBody_keeps t f)
  | downtime => exact request rfl (fun f t => downtimeBody_keeps t f)
  | ackClass => exact request rfl (fun f t => ackClassBody_keeps t f)
  | flushLag => exact request rfl (fun f t => flushLagBody_keeps t f)
  | status => exact request rfl (fun f t => statusBody_keeps t f)
  | unknownRequest => exact plain rfl (fun _ t => Keeps.refl t) (fun _ t => SameWaits.refl t)

/-! ## The laws kept but for what a command is exempt from -/

section
variable {x : Part → Prop} {s t : State}

theorem admitted_keeps (s t : State) (hx : x .waits) : Keeps x t (admitted s t) := (admitted_admits s t).keeps hx

theorem admittedJudged_keeps (s t : State) (hx : x .waits) : Keeps x t (admittedJudged s t) :=
  Keeps.trans (Keeps.ite (Keeps.refl t) ((admitRecords_admits _ t).keeps hx)) (Keeps.judged _ _)

theorem Ends.keeps {u : State} (h : Ends s u t) (hx : x .waits) : Keeps x u t := by
  rcases h with ⟨rfl, -⟩ | rfl | rfl
  · exact Keeps.refl _
  · exact admitted_keeps s u hx
  · exact admittedJudged_keeps s u hx

/-- What every command but the power-on reset keeps. -/
theorem exec_keeps {i : Instr} (h : exec i s = .next t) (reset : i ≠ .powerOnReset) :
    Keeps (fun p => exempt s i p ∨ p = .waits) s t := by
  by_cases cab : i = .cabTransmitBegin
  · subst cab
    obtain rfl := Host.Outcome.next.inj h
    split
    · next c _ hc => exact beginCab_keeps s (.inr rfl) hc
    · exact Keeps.refl s
  by_cases admission : i = .recordAdmission
  · subst admission
    obtain rfl := Host.Outcome.next.inj h
    exact (admitRecords_admits _ s).keeps (.inr rfl)
  · obtain ⟨u, k, e⟩ := exec_ends h reset cab admission
    exact (k.mono fun p => .inl).trans (e.keeps (.inr rfl))

end

/-! ## Steps -/

/-- A law that does not speak of the queue of commands or of the clock is kept by every step where every command keeps
it. -/
theorem step_keeps_law {L : State → Prop} (queue : ∀ s l, L s → L { s with pending := l })
    (clock : ∀ s n, L s → L { s with now := n }) (command : ∀ i s t, L s → exec i s = .next t → L t) :
    ∀ s t, L s → step s = .next t → L t := by
  intro s t l h
  unfold step at h
  split at h
  · next i rest _ => exact command i _ t (queue s rest l) h
  · obtain rfl := Host.Outcome.next.inj h
    unfold idle
    split
    · exact queue s _ l
    · exact clock s _ l

end Sys2Proof.Machine

/-! # The laws that every step keeps -/

namespace Sys2Proof.Machine

/-- Every command is carried out to a next state. -/
theorem exec_next (i : Instr) (s : State) : ∃ t, exec i s = .next t := by cases i <;> exact ⟨_, rfl⟩

/-- Settles O2: every command but the reset is known to keep both, and the reset takes both over. -/
theorem everyCommandAnswersNext : Obligations.EveryCommandAnswersNext := by
  intro i s
  obtain ⟨t, h⟩ := exec_next i s
  by_cases reset : i = .powerOnReset
  · subst reset
    exact ⟨_, rfl, rfl, rfl⟩
  · have k := exec_keeps h reset
    exact ⟨t, h, k.pending, k.noticeOrder⟩

/-! ## Sizes, and no record left waiting that could enter (R22, R23) -/

/-- A ROD record that waits where nothing could enter finds the record queue full. -/
theorem Settled.rodHeld {s : State} (h : Settled s) (one : OneFrame s) : RodHeld s := by
  intro n
  obtain ⟨r, rest, e⟩ := List.exists_cons_of_ne_nil n
  have first : firstOffer s = some (.rod, r) := by simp [firstOffer, admissionOrder, offeredRecord, e]
  have full : recordRoom s < r.frames.length := by
    have : admissible s = none := h
    simpa [admissible, first, Option.filter] using this
  have := (one r (by rw [e]; exact List.mem_cons_self)).2
  omega

/-- A STRATA record has three frames, an EVENT record one and a STATUS record three (R5, R6, R8). -/
theorem offered_frames {s : State} {p : Producer} {r : RecordBody} (h : offeredRecord s p = some r) (hr : p ≠ .rod)
    (ht : p ≠ .ticket) : r.frames.length = if p = .event then 1 else 3 := by
  cases p with
  | rod => exact absurd rfl hr
  | ticket => exact absurd rfl ht
  | strata =>
    simp only [offeredRecord] at h
    split at h
    · cases h; rfl
    · split at h <;> cases h
      rfl
    · cases h
  | event =>
    obtain ⟨src, -, rfl⟩ := Option.map_eq_some_iff.1 h
    rfl
  | status =>
    obtain ⟨c, -, rfl⟩ := Option.map_eq_some_iff.1 h
    rfl

/-- A producer that waits still waits. -/
theorem Waits.stillWaits {s t : State} (h : Waits s t) (one : OneFrame s) (held : RodHeld s) {p : Producer}
    (w : isWaiting s p = true) : isWaiting t p = true := by
  obtain ⟨r, e⟩ := Option.isSome_iff_exists.1 w
  cases p with
  | rod =>
    obtain ⟨-, -, more, k⟩ := h.rods one held
    refine Option.isSome_iff_exists.2 ⟨r, ?_⟩
    simp only [offeredRecord] at e ⊢
    rw [← k, List.head?_append, e]
    rfl
  | ticket => exact Option.isSome_iff_exists.2 ⟨r, h.ticket r e⟩
  | strata => exact h.strata w
  | event =>
    obtain ⟨src, k, -⟩ := Option.map_eq_some_iff.1 e
    have pending : s.event.accounts[src].pending = true := by simpa using List.find?_some k
    simp only [isWaiting, offeredRecord, Option.isSome_map, lowestPending, List.find?_isSome]
    exact ⟨src, List.mem_finRange src, h.pending src pending⟩
  | status =>
    obtain ⟨c, k, -⟩ := Option.map_eq_some_iff.1 e
    simp [isWaiting, offeredRecord, h.due c k]

/-- The first record that waits has as many frames as it had. -/
theorem Waits.frames {s t : State} (h : Waits s t) (one : OneFrame s) (held : RodHeld s) {p : Producer}
    {r r' : RecordBody} (e : offeredRecord s p = some r) (e' : offeredRecord t p = some r') :
    r'.frames.length = r.frames.length := by
  by_cases hr : p = .rod
  · subst hr
    rw [(one r (List.mem_of_head? e)).2, ((h.rods one held).1 r' (List.mem_of_head? e')).2]
  by_cases ht : p = .ticket
  · subst ht
    obtain rfl : r = r' := Option.some.inj ((h.ticket r e).symm.trans e')
    rfl
  · rw [offered_frames e hr ht, offered_frames e' hr ht]

/-- The first record that waits is that of the first producer in admission order that waits. -/
theorem firstOffer_eq (s : State) : firstOffer s = (waiting s).head?.bind fun p =>
    (offeredRecord s p).map fun r => (p, r) := by
  unfold firstOffer waiting
  rw [List.head?_filter]
  induction admissionOrder with
  | nil => rfl
  | cons p rest ih =>
    rw [List.findSome?_cons, List.find?_cons]
    unfold isWaiting
    cases e : offeredRecord s p with
    | none => exact ih
    | some r => simp [e]

theorem settled_iff (s : State) : Settled s ↔
    ∀ p, (waiting s).head? = some p → ∀ r, offeredRecord s p = some r → recordRoom s < r.frames.length := by
  unfold Settled admissible
  rw [firstOffer_eq]
  cases (waiting s).head? with
  | none => simp
  | some p =>
    cases e : offeredRecord s p with
    | none => simp [e]
    | some r => simp [e, Option.filter]

/-- Where no producer has begun to wait, and none has been withdrawn, no record that waits can enter still. -/
theorem Waits.settled {s t : State} (h : Waits s t) (one : OneFrame s) (st : Settled s)
    (begun : ∀ p, isWaiting t p = true → isWaiting s p = true) : Settled t := by
  have held := st.rodHeld one
  have same : waiting t = waiting s := List.filter_congr fun p _ =>
    Bool.eq_iff_iff.2 ⟨begun p, h.stillWaits one held⟩
  rw [settled_iff] at st ⊢
  intro p hp r' e'
  rw [same] at hp
  obtain ⟨r, e⟩ := Option.isSome_iff_exists.1 (begun p (by simp [isWaiting, e']))
  have := h.frames one held e e'
  have := st p hp r e
  have := h.room
  omega

theorem Fits.oneFrame {s : State} (h : Fits s) : OneFrame s := h.rodRecords

theorem Fits.hasFrames {s : State} (h : Fits s) : HasFrames s := by
  refine ⟨fun r m => ?_, fun r m => ?_⟩ <;> rw [← List.length_pos_iff]
  · rw [(h.rodRecords r m).2]
    exact Nat.one_pos
  · exact Nat.lt_of_lt_of_le Nat.two_pos (h.ticket r m).2.1

/-- The two queues of the model's own say nothing of records. -/
theorem Settled.queues {s : State} (h : Settled s) (l : List Instr) (o : List Ch) :
    Settled { s with pending := l, noticeOrder := o } := h

/-- Writing what has been judged moves no record. -/
theorem Settled.judged {s : State} (h : Settled s) (l : List Producer) : Settled (s.setLine { s.line with judged := l }) := h

theorem Ends.settled {s u t : State} (h : Ends s u t) (w : Waits s u) (one : OneFrame s) (frames : HasFrames u)
    (st : Settled s) : Settled t := by
  rcases h with ⟨rfl, begun⟩ | rfl | rfl
  · exact w.settled one st begun
  · unfold Machine.admitted
    split
    · next all =>
      refine w.settled one st fun p hp => List.all_eq_true.1 all p (List.mem_filter.2 ⟨?_, hp⟩)
      cases p <;> decide
    · exact admitRecords_settled (waiting_nodup s) frames
  · cases all : (waiting u).all (isWaiting s) with
    | true =>
      have begun : ∀ p, isWaiting u p = true → isWaiting s p = true := fun p hp =>
        List.all_eq_true.1 all p (List.mem_filter.2 ⟨by cases p <;> decide, hp⟩)
      rw [admittedJudged_same begun]
      exact (w.settled one st begun).judged _
    | false => exact admittedJudged_settled frames all

theorem Fits.settled_line {s : State} (h : Fits s) (st : Settled s) {l : LineState} (r : l.records = s.line.records)
    (d : l.statusDue = s.line.statusDue) : Settled (s.setLine l) :=
  (Waits.line r d).settled h.oneFrame st fun p e => by
    rwa [SameWaits.isWaiting (s := s) (t := s.setLine l) ⟨rfl, rfl, rfl, rfl, d⟩ p] at e

theorem exec_keeps_settled {i : Instr} {s t : State} (h : exec i s = .next t) (fits : Fits s) (st : Settled s) :
    Settled t := by
  by_cases reset : i = .powerOnReset
  · subst reset
    obtain rfl := Host.Outcome.next.inj h
    exact Settled.queues (s := State.reset) Tests.witness_sizes_conditions.1 s.pending s.noticeOrder
  by_cases cab : i = .cabTransmitBegin
  · subst cab
    obtain rfl := Host.Outcome.next.inj h
    split
    · next c _ hc =>
      cases c with
      | response f => exact fits.settled_line st rfl rfl
      | forwarded f rest => exact fits.settled_line st rfl rfl
      | record f rest =>
        have frames : HasFrames (s.setLine { s.line with records := rest, forwardedRun := 0, cabOut := some f }) :=
          fits.hasFrames
        exact admitRecords_settled (waiting_nodup s) frames
    · exact st
  by_cases admission : i = .recordAdmission
  · subst admission
    obtain rfl := Host.Outcome.next.inj h
    exact admitRecords_settled (waiting_nodup s) fits.hasFrames
  · obtain ⟨u, k, e⟩ := exec_ends h reset cab admission
    refine e.settled (k.waits ?_) fits.oneFrame (k.fits fits).hasFrames st
    cases i <;> simp [exempt]

theorem exec_keeps_fits {i : Instr} {s t : State} (h : exec i s = .next t) (fits : Fits s) : Fits t := by
  by_cases reset : i = .powerOnReset
  · subst reset
    obtain rfl := Host.Outcome.next.inj h
    exact Fits.same (s := State.reset) rfl rfl rfl rfl rfl Tests.witness_sizes_conditions.2.1
  · exact (exec_keeps h reset).fits fits

/-- Settles O52: the sizes by `exec_keeps`; where no producer begins to wait the records that waited wait still, and any
other step ends with an admission. -/
theorem stepsKeepSizes : Obligations.StepsKeepSizes := by
  have sizes : ∀ s t : State, Fits s → step s = .next t → Fits t :=
    step_keeps_law (fun _ _ => Fits.same rfl rfl rfl rfl rfl) (fun _ _ => Fits.same rfl rfl rfl rfl rfl)
      fun _ _ _ f h => exec_keeps_fits h f
  have both : ∀ s t : State, Fits s ∧ Settled s → step s = .next t → Fits t ∧ Settled t :=
    step_keeps_law (fun s _ l => ⟨Fits.same (s := s) rfl rfl rfl rfl rfl l.1, l.2⟩)
      (fun s _ l => ⟨Fits.same (s := s) rfl rfl rfl rfl rfl l.1, l.2⟩)
      fun _ _ _ l h => ⟨exec_keeps_fits h l.1, exec_keeps_settled h l.1 l.2⟩
  exact fun s t f h => ⟨sizes s t f h, fun st => (both s t ⟨f, st⟩ h).2⟩

end Sys2Proof.Machine

/-! # Rods, sums, the hole, the tables and the job -/

namespace Sys2Proof.Machine

/-! ## The rod laws (R66, R70, R74 to R76) -/

theorem exempt_rods (s : State) (i : Instr) : ¬exempt s i .rods := by cases i <;> simp [exempt]

theorem rodLaw_reset (s : State) : RodLaw { State.reset with pending := s.pending, noticeOrder := s.noticeOrder } :=
  RodLaw.same (s := State.reset) rfl rfl rfl Tests.witness_laws.2.2.1

theorem exec_keeps_rodLaw {i : Instr} {s t : State} (l : RodLaw s) (h : exec i s = .next t) : RodLaw t := by
  by_cases reset : i = .powerOnReset
  · subst reset
    obtain rfl := Host.Outcome.next.inj h
    exact rodLaw_reset s
  · exact (exec_keeps h reset).rodLaw (by simp [exempt_rods]) l

theorem exec_keeps_sums {i : Instr} {s t : State} (l : RodLaw s) (m : SumsLaw s) (h : exec i s = .next t) : SumsLaw t := by
  by_cases reset : i = .powerOnReset
  · subst reset
    obtain rfl := Host.Outcome.next.inj h
    exact SumsLaw.same (s := State.reset) rfl rfl rfl rfl rfl rfl Tests.witness_laws.2.2.2.1
  · exact (exec_keeps h reset).sums (by simp [exempt_rods]) l m

/-- Settles O56: a push, a pop, a commit and the rack requests keep the law whole (`rodLaw_iff`); no other command writes
the table, the string or the candidate but within it. -/
theorem stepsKeepRodLaw : Obligations.StepsKeepRodLaw :=
  step_keeps_law (fun s _ => RodLaw.same (s := s) rfl rfl rfl) (fun s _ => RodLaw.same (s := s) rfl rfl rfl)
    fun _ _ _ => exec_keeps_rodLaw

/-- Settles O57: the law of the string tells which rods a sum runs over, so the two laws are kept together. -/
theorem stepsKeepSums : Obligations.StepsKeepSums := by
  have both : ∀ s t : State, RodLaw s ∧ SumsLaw s → step s = .next t → RodLaw t ∧ SumsLaw t :=
    step_keeps_law
      (fun s _ l => ⟨RodLaw.same (s := s) rfl rfl rfl l.1, SumsLaw.same (s := s) rfl rfl rfl rfl rfl rfl l.2⟩)
      (fun s _ l => ⟨RodLaw.same (s := s) rfl rfl rfl l.1, SumsLaw.same (s := s) rfl rfl rfl rfl rfl rfl l.2⟩)
      fun _ _ _ l h => ⟨exec_keeps_rodLaw l.1 h, exec_keeps_sums l.1 l.2 h⟩
  exact fun s t l m h => (both s t ⟨l, m⟩ h).2

/-! ## The hole depth (R48, R49) -/

/-- With a job open or ending, a JOB_START is refused (R149, R150). -/
theorem execJobStart_hole {s t : State} (h : exec .jobStart s = .next t) (job : s.bill.job ≠ .noJob) :
    s.depth.hole ≤ t.depth.hole := by
  obtain rfl := Host.Outcome.next.inj h
  rw [(admitted_admits _ _).depth]
  refine takeRequest_elim (P := fun u => s.depth.hole ≤ u.depth.hole) (Nat.le_refl _) (fun _ _ _ _ => Nat.le_refl _)
    fun f rest _ free => ?_
  have refused : (jobStartBody f (taken rest s)).1 = taken rest s := by
    refine (jobStartBody_state f _).resolve_right fun ⟨opened, _⟩ => ?_
    have ending : s.bill.job ≠ .ending := free.resolve_right (by decide)
    have opened' : s.bill.job ≠ .opened := opened
    cases e : s.bill.job <;> simp_all
  rw [refused]
  exact ⟨Nat.le_refl _, fun _ => Nat.le_refl _⟩

/-- Settles O58: but for JOB_START, which a job refuses, every command keeps both; the used bit depth is recomputed
within the hole wherever the hole changes. -/
theorem holeDepthOnlyGrows : Obligations.HoleDepthOnlyGrows := by
  intro i s t h reset
  have k := exec_keeps h reset
  refine ⟨fun job => ?_, k.bit⟩
  by_cases start : i = .jobStart
  · subst start
    exact execJobStart_hole h job
  · refine k.hole ?_
    cases i <;> simp_all [exempt]

/-! ## The active copies (R193 to R195) -/

theorem loadBody_active (f : Frame) (s : State) (n : TableNo) : activeCopy (loadBody f s).1 n = activeCopy s n := by
  unfold loadBody
  split
  · rfl
  · next m _ =>
    rw [apply_ite Prod.fst, apply_ite Prod.fst]
    split
    · rfl
    · split
      · rfl
      · refine (activeCopy_setTables_set s m n _).trans ?_
        split
        · next e => rw [← e]; rfl
        · rfl

/-- Settles O59: of the other commands LOAD alone writes a table, and leaves its active copy. -/
theorem activeCopiesChangeOnlyThen : Obligations.ActiveCopiesChangeOnlyThen := by
  intro i s t h activate shiftClose jobEnd reset n
  by_cases load : i = .load
  · subst load
    obtain rfl := Host.Outcome.next.inj h
    exact takeRequest_elim (P := fun u => activeCopy u n = activeCopy s n) rfl (fun _ _ _ _ => rfl) fun f rest _ _ =>
      have a := loadBody_active f (taken rest s) n
      ⟨a, fun _ => a⟩
  · have k := (exec_keeps h reset).tables (by cases i <;> simp_all [exempt])
    rw [k]

/-! ## The job (R62, R131, R140, R148 to R152, R165) -/

theorem JobLaw.same {s t : State} (l : JobLaw s) (h : SameJob s t) : JobLaw t where
  ticket := by rw [h.ticketOpen, h.job]; exact l.ticket
  interval := by rw [h.interval, h.job]; exact l.interval
  clock := by rw [h.clock, h.job]; exact l.clock
  deferred := by rw [h.deferred, h.job]; exact l.deferred
  ending := by rw [h.ending, h.job]; exact l.ending
  jobNumber := by rw [h.jobNumber, h.job]; exact l.jobNumber
  ticketNumber := by rw [h.ticketNumber, h.job]; exact l.ticketNumber

/-- An operation that is exempt from nothing, or from nothing of the job. -/
theorem Keeps.jobLaw {x : Part → Prop} {s t : State} (h : Keeps x s t) (hx : ¬x .job) (l : JobLaw s) : JobLaw t :=
  l.same (h.job hx)

theorem admitted_jobLaw {s t : State} (l : JobLaw t) : JobLaw (admitted s t) :=
  (admitted_keeps (x := (· = .waits)) s t rfl).jobLaw (by simp) l

theorem taken_jobLaw {s : State} (rest : List Frame) (l : JobLaw s) : JobLaw (taken rest s) :=
  l.same ⟨rfl, rfl, rfl, rfl, rfl, rfl, rfl, rfl⟩

theorem placeResponse_jobLaw {s : State} (g : Frame) (l : JobLaw s) : JobLaw (placeResponse g s) :=
  l.same ⟨rfl, rfl, rfl, rfl, rfl, rfl, rfl, rfl⟩

/-- A request whose own rule keeps the law. -/
theorem takeRequest_jobLaw {kind countFits : Nat → Bool} {body : Frame → State → State × Option Reply} {s : State}
    (l : JobLaw s) (h : ∀ f t, JobLaw t → t.bill.job ≠ .ending → JobLaw (body f t).1) :
    JobLaw (takeRequest kind countFits false body s) :=
  takeRequest_elim l (fun _ rest _ _ => placeResponse_jobLaw _ (taken_jobLaw rest l)) fun f rest _ free =>
    have b := h f (taken rest s) (taken_jobLaw rest l) (free.resolve_right (by decide))
    ⟨b, fun g => placeResponse_jobLaw g b⟩

theorem startJob_jobLaw (f : Frame) {s : State} (l : JobLaw s) (job : s.bill.job = .noJob) : JobLaw (startJob f s) := by
  have opened : JobLaw (openFirstInterval (f.val32 4) (f.val32 1)
      (openJob (f.val 0) (f.val32 1) (f.val 3) (depthJobStart (f.val32 1) s))) :=
    { ticket := rfl, interval := rfl, clock := rfl, deferred := fun _ => rfl
      ending := l.ending.trans (by rw [job]; rfl)
      jobNumber := fun h => nomatch h
      ticketNumber := fun h => nomatch h }
  exact ((refindSegment_keeps (x := fun _ => False) _).trans (recomputeCandidate_keeps _)).jobLaw id opened

theorem jobStartBody_jobLaw (f : Frame) {s : State} (l : JobLaw s) (job : s.bill.job ≠ .ending) :
    JobLaw (jobStartBody f s).1 := by
  rcases jobStartBody_state f s with h | ⟨opened, h⟩ <;> rw [h]
  · exact l
  · exact startJob_jobLaw f l (by cases e : s.bill.job <;> simp_all)

/-- What the deferred tariff's activation leaves of the job: all but that none is deferred any more (R165). -/
theorem applyDeferred_bill (s : State) : (applyDeferred s).bill = { s.bill with deferred := false } := by
  unfold applyDeferred
  split
  · exact (occurNat_eventOnly _ _ _).bill
  · next h =>
    rw [Bool.not_eq_true] at h
    rw [← h]

theorem applyDeferred_clock (s : State) : (applyDeferred s).depth = s.depth := by
  unfold applyDeferred
  split
  · exact (occurNat_eventOnly _ _ _).depth
  · rfl

theorem applyDeferred_interval (s : State) : (applyDeferred s).interval = s.interval := by
  unfold applyDeferred
  split
  · exact (occurNat_eventOnly _ _ _).interval
  · rfl

theorem closeShift_jobLaw {s : State} (l : JobLaw s) (job : s.bill.job ≠ .noJob) : JobLaw (closeShift s) := by
  have cut := ((shiftCut_keeps (x := fun _ => False) s).job id)
  have m := l.same cut
  have job' : (shiftCut s).bill.job ≠ .noJob := by rw [cut.job]; exact job
  constructor
  all_goals
    simp only [closeShift, nextTicket, State.setBill_bill, State.setBill_interval, State.setBill_depth,
      applyDeferred_bill, applyDeferred_clock, applyDeferred_interval, snapshot]
  · exact m.ticket
  · exact m.interval
  · exact m.clock
  · exact fun h => nomatch h
  · exact m.ending
  · exact fun h => absurd h job'
  · exact fun h => absurd h job'

theorem endJob_jobLaw {s : State} (l : JobLaw s) (job : s.bill.job = .opened) : JobLaw (endJob s) := by
  have cut : ByClose (s.setBill { s.bill with job := .ending }) (endingCut s) := endCut_byClose _
  have bill : (endingCut s).bill.job = .ending := by rw [cut.bill]; rfl
  have clock : (endingCut s).depth.clockRuns = s.depth.clockRuns := by rw [cut.depth]; rfl
  have interval : (endingCut s).interval.current = none := endCut_current _
  have begun : JobLaw (beginEnding s.depth.hole (applyDeferred (snapshot true (endingCut s)))) := by
    constructor
    all_goals
      simp only [beginEnding, State.setBill_bill, State.setBill_interval, State.setBill_depth,
        applyDeferred_bill, applyDeferred_clock, applyDeferred_interval, snapshot, bill, clock, interval]
    · rfl
    · rfl
    · rw [l.clock, job]; rfl
    · exact fun h => nomatch h
    · rfl
    · exact fun h => nomatch h
    · exact fun h => nomatch h
  exact (jobEndFlush_keeps (x := fun _ => False) _).jobLaw id begun

theorem completeJobEnd_jobLaw {s : State} (w : EndingWatch) (l : JobLaw s) (job : s.bill.job = .ending) :
    JobLaw (completeJobEnd w s) := by
  let finished := s.setBill { s.bill with job := .noJob }
  let stopped := intervalClear (finished.setDepth { finished.depth with clockRuns := false })
  have pit : SameJob stopped (pitJobEnd stopped) := (pitJobEnd_keeps (x := fun _ => False) stopped).job id
  have bill : (completeJobEnd w s).bill = { (pitJobEnd stopped).bill with
      jobNumber := 0, ticketNumber := 0, ending := none, lines := Vector.replicate 44 TicketLine.empty } := rfl
  have ticket : s.bill.ticketOpen = false := l.ticket.trans (by rw [job]; rfl)
  have tariff : s.bill.deferred = false := Bool.eq_false_iff.2 fun h => by rw [l.deferred h] at job; cases job
  have noJob : (completeJobEnd w s).bill.job = .noJob := by rw [bill]; exact pit.job
  constructor <;> rw [noJob]
  · rw [bill]; exact pit.ticketOpen.trans ticket
  · exact pit.interval
  · exact pit.clock
  · rw [bill]
    exact fun h => absurd (h.symm.trans (pit.deferred.trans tariff)) (by decide)
  · rw [bill]; rfl
  · exact fun _ => congrArg BillState.jobNumber bill
  · exact fun _ => congrArg BillState.ticketNumber bill

theorem activateBody_jobLaw (f : Frame) {s : State} (l : JobLaw s) : JobLaw (activateBody f s).1 := by
  unfold activateBody
  split
  · exact l
  · next n _ =>
    split
    · exact l
    · split
      · next h => exact { l with deferred := fun _ => h.2 }
      · exact (activated_keeps (x := fun p => p = .tables ∨ p = .channels) s n _ (.inl rfl) (.inr rfl)).jobLaw (by simp) l

theorem exec_keeps_jobLaw {i : Instr} {s t : State} (l : JobLaw s) (h : exec i s = .next t) : JobLaw t := by
  cases i
  case powerOnReset =>
    obtain rfl := Host.Outcome.next.inj h
    exact JobLaw.same (s := State.reset) Tests.witness_laws.2.1 ⟨rfl, rfl, rfl, rfl, rfl, rfl, rfl, rfl⟩
  case activate =>
    obtain rfl := Host.Outcome.next.inj h
    exact admitted_jobLaw (takeRequest_jobLaw l fun f _ m _ => activateBody_jobLaw f m)
  case jobStart =>
    obtain rfl := Host.Outcome.next.inj h
    exact admitted_jobLaw (takeRequest_jobLaw l fun f _ m job => jobStartBody_jobLaw f m job)
  case shiftClose =>
    obtain rfl := Host.Outcome.next.inj h
    refine admitted_jobLaw (takeRequest_jobLaw l fun f t m _ => ?_)
    rcases shiftCloseBody_state f t with e | ⟨job, -, e⟩ <;> rw [e]
    · exact m
    · exact closeShift_jobLaw m job
  case jobEnd =>
    obtain rfl := Host.Outcome.next.inj h
    refine admitted_jobLaw (takeRequest_jobLaw l fun f t m free => ?_)
    rcases jobEndBody_state f t with e | ⟨job, -, e⟩ <;> rw [e]
    · exact m
    · exact endJob_jobLaw m (by cases k : t.bill.job <;> simp_all)
  case jobEndCompletion =>
    obtain rfl := Host.Outcome.next.inj h
    split
    · next w e =>
      refine admitted_jobLaw (completeJobEnd_jobLaw w l ?_)
      unfold endingDone at e
      split at e
      · next k => exact k.1
      · cases e
    · exact l
  all_goals
    exact (exec_keeps h (by simp)).jobLaw (by simp [exempt]) l

/-- Settles O54: the five commands that write the job are followed through the states they pass; every other keeps all
that the law speaks of. -/
theorem stepsKeepJobLaw : Obligations.StepsKeepJobLaw :=
  step_keeps_law (fun _ _ l => l.same ⟨rfl, rfl, rfl, rfl, rfl, rfl, rfl, rfl⟩)
    (fun _ _ l => l.same ⟨rfl, rfl, rfl, rfl, rfl, rfl, rfl, rfl⟩) fun _ _ _ => exec_keeps_jobLaw

end Sys2Proof.Machine

/-! # The channels: BYPASS, and the conditions -/

namespace Sys2Proof.Machine

/-! ## Which condition speaks of which channel (R31, R36) -/

/-- The numbers of a channel's two limit sources: an even one from 16 on, and the next (R36). -/
theorem limitBase_range : ∀ (c : Ch) (n : Nat), limitBase c = some n → 16 ≤ n ∧ n ≤ 30 ∧ n % 2 = 0 := by
  intro c n h
  unfold limitBase at h
  split at h <;> cases h <;> decide

/-- No two channels share a limit's source (R36). -/
theorem limitBase_inj : ∀ c d : Ch, limitBase c = limitBase d → limitBase c ≠ none → c = d := by decide

theorem limitSource_val {c : Ch} {l : LimitNo} {q : Source} (h : limitSource c l = some q) :
    ∃ n, limitBase c = some n ∧ q.val = match l with | .l1 => n | .l2 => n + 1 := by
  obtain ⟨n, hn, rfl⟩ := Option.map_eq_some_iff.1 h
  have := limitBase_range c n hn
  refine ⟨n, hn, ?_⟩
  cases l <;> simp only [Fin.val_ofNat] <;> omega

/-- A source is that of one limit at most (R36). -/
theorem limitSource_apart {c d : Ch} {l m : LimitNo} {q : Source} (h : limitSource c l = some q)
    (k : limitSource d m = some q) : c = d ∧ l = m := by
  obtain ⟨n, hn, vn⟩ := limitSource_val h
  obtain ⟨p, hp, vp⟩ := limitSource_val k
  have rn := limitBase_range c n hn
  have rp := limitBase_range d p hp
  have same : n = p ∧ l = m := by
    cases l <;> cases m <;> simp only [and_true, reduceCtorEq, and_false] at vn vp ⊢ <;> omega
  obtain ⟨rfl, rfl⟩ := same
  exact ⟨limitBase_inj c d (hn.trans hp.symm) (by simp [hn]), rfl⟩

/-- The source of a fault is none of a limit, and the link's is neither (R2, R31, R36). -/
theorem limitSource_range {c : Ch} {l : LimitNo} {q : Source} (h : limitSource c l = some q) : 16 ≤ q.val ∧ q.val < 32 := by
  obtain ⟨n, hn, vn⟩ := limitSource_val h
  have := limitBase_range c n hn
  cases l <;> simp only at vn <;> omega

/-- The source of a channel's fault or of one of its limits. -/
def OfChannel (c : Ch) (q : Source) : Prop := q = srcChFault c ∨ ∃ l, limitSource c l = some q

theorem srcChFault_val (c : Ch) : (srcChFault c).val = c.val := rfl

/-- A source speaks of one channel at most. -/
theorem OfChannel.unique {c d : Ch} {q : Source} (h : OfChannel c q) (k : OfChannel d q) : c = d := by
  have low : ∀ e : Ch, (srcChFault e).val < 16 := fun e => e.isLt
  rcases h with rfl | ⟨l, h⟩ <;> rcases k with k | ⟨m, k⟩
  · exact Fin.ext (congrArg (fun q : Source => q.val) k)
  · have := limitSource_range k
    have := low c
    omega
  · subst k
    have := limitSource_range h
    have := low d
    omega
  · exact (limitSource_apart h k).1

theorem OfChannel.reserved {c : Ch} {q : Source} (h : OfChannel c q) : Reserved q := by
  left
  rcases h with rfl | ⟨l, h⟩
  · exact Nat.lt_trans c.isLt (by decide)
  · exact (limitSource_range h).2

theorem not_ofChannel_link (c : Ch) : ¬OfChannel c srcLinkDown := by
  rintro (h | ⟨l, h⟩)
  · have := congrArg Fin.val h
    have := c.isLt
    simp only [srcChFault_val, srcLinkDown] at *
    omega
  · exact absurd (limitSource_range h).2 (by decide)

/-! ## The conditions of one channel -/

/-- The limit conditions of a channel are that its limits are TRIPPED (R36). -/
def LimitsAt (c : Ch) (s : State) : Prop :=
  ∀ l src, limitSource c l = some src → cond s src = (s.channels[c].limit l == .tripped)

/-- The fault condition of a channel is that of its state (R31). -/
def FaultAt (c : Ch) (s : State) : Prop := cond s (srcChFault c) = channelFault s c

/-- The condition of the links is that of their states (R2). -/
def LinkLaw (s : State) : Prop := cond s srcLinkDown = linkDownCond s

theorem conditionLaw_iff (s : State) : ConditionLaw s ↔ (∀ c, LimitsAt c s ∧ FaultAt c s) ∧ LinkLaw s :=
  ⟨fun ⟨l, f, k⟩ => ⟨fun c => ⟨l c, f c⟩, k⟩, fun ⟨h, k⟩ => ⟨fun c => (h c).1, fun c => (h c).2, k⟩⟩

theorem channelFault_congr {s t : State} {c : Ch} (h : t.channels[c] = s.channels[c]) :
    channelFault t c = channelFault s c := by
  unfold channelFault
  rw [h]

/-- Only a channel, and the conditions that speak of it, differ among all that the conditions speak of. -/
structure OnChannel (c : Ch) (s t : State) : Prop where
  channels : ∀ d, d ≠ c → t.channels[d] = s.channels[d]
  links : t.line.fieldLink = s.line.fieldLink ∧ t.line.cabLink = s.line.cabLink
  conds : ∀ q, Reserved q → ¬OfChannel c q → cond t q = cond s q

theorem OnChannel.refl (c : Ch) (s : State) : OnChannel c s s := ⟨fun _ _ => rfl, ⟨rfl, rfl⟩, fun _ _ _ => rfl⟩

theorem OnChannel.trans {c : Ch} {s t u : State} (h : OnChannel c s t) (k : OnChannel c t u) : OnChannel c s u where
  channels := fun d hd => (k.channels d hd).trans (h.channels d hd)
  links := ⟨k.links.1.trans h.links.1, k.links.2.trans h.links.2⟩
  conds := fun q r n => (k.conds q r n).trans (h.conds q r n)

/-- What an operation keeps that is exempt from nothing of the channels and links. -/
theorem Keeps.onChannel {x : Part → Prop} {s t : State} (h : Keeps x s t) (hx : ¬x .channels) (hl : ¬x .links) (c : Ch) :
    OnChannel c s t where
  channels := fun d _ => by rw [h.channels hx]
  links := h.links hl
  conds := fun q r _ => h.conds hx hl q r

section
variable {c : Ch} {s t : State}

theorem OnChannel.limitsAt (h : OnChannel c s t) {d : Ch} (hd : d ≠ c) (k : LimitsAt d s) : LimitsAt d t := by
  intro l src e
  have own : OfChannel d src := .inr ⟨l, e⟩
  rw [h.conds src own.reserved fun o => hd (own.unique o), h.channels d hd]
  exact k l src e

theorem OnChannel.faultAt (h : OnChannel c s t) {d : Ch} (hd : d ≠ c) (k : FaultAt d s) : FaultAt d t := by
  have own : OfChannel d (srcChFault d) := .inl rfl
  unfold FaultAt
  rw [h.conds _ own.reserved fun o => hd (own.unique o), channelFault_congr (h.channels d hd)]
  exact k

theorem OnChannel.linkLaw (h : OnChannel c s t) (k : LinkLaw s) : LinkLaw t := by
  unfold LinkLaw linkDownCond at *
  rw [h.conds _ (.inr rfl) (not_ofChannel_link c), h.links.1, h.links.2]
  exact k

variable {x : Part → Prop} (h : Keeps x s t) (hx : ¬x .channels) (hl : ¬x .links)
include h hx hl

theorem Keeps.limitsAt (c : Ch) (k : LimitsAt c s) : LimitsAt c t := by
  intro l src e
  rw [h.conds hx hl src (OfChannel.reserved (c := c) (.inr ⟨l, e⟩)), h.channels hx]
  exact k l src e

theorem Keeps.faultAt (c : Ch) (k : FaultAt c s) : FaultAt c t := by
  unfold FaultAt
  rw [h.conds hx hl _ (OfChannel.reserved (c := c) (.inl rfl)), channelFault_congr (s := s) (t := t) (by rw [h.channels hx])]
  exact k

theorem Keeps.linkLaw (k : LinkLaw s) : LinkLaw t := (h.onChannel hx hl 0).linkLaw k

theorem Keeps.conditionLaw (k : ConditionLaw s) : ConditionLaw t := by
  rw [conditionLaw_iff] at *
  obtain ⟨a, b⟩ := k
  exact ⟨fun c => ⟨h.limitsAt hx hl c (a c).1, h.faultAt hx hl c (a c).2⟩, h.linkLaw hx hl b⟩

end

/-! ## Reports and limits of a channel -/

section
variable (s : State) (c : Ch)

theorem report_onChannel {src : Source} (b : Bool) (h : OfChannel c src) : OnChannel c s (report src b s) where
  channels := fun d _ => by rw [(report_eventOnly src b s).channels]
  links := by rw [(report_eventOnly src b s).line]; exact ⟨rfl, rfl⟩
  conds := fun q _ n => by rw [report_cond, if_neg (by rintro rfl; exact n h)]

theorem reportFault_onChannel : OnChannel c s (reportFault c s) := report_onChannel s c _ (.inl rfl)

theorem reportFault_channels : (reportFault c s).channels = s.channels := (report_eventOnly _ _ s).channels

theorem reportFault_faultAt : FaultAt c (reportFault c s) := by
  unfold FaultAt
  rw [channelFault_congr (s := s) (by rw [reportFault_channels])]
  exact (report_cond _ _ s _).trans (if_pos rfl)

/-- The report of a fault says nothing of the limits. -/
theorem reportFault_limitsAt (k : LimitsAt c s) : LimitsAt c (reportFault c s) := by
  intro l src e
  have apart : src ≠ srcChFault c := by
    rintro rfl
    have := (limitSource_range e).1
    have := c.isLt
    rw [srcChFault_val] at *
    omega
  rw [reportFault_channels]
  exact ((report_cond _ _ s src).trans (if_neg apart)).trans (k l src e)

theorem reportLimit_onChannel (l : LimitNo) : OnChannel c s (reportLimit c l s) := by
  unfold reportLimit
  split
  · next src e => exact report_onChannel s c _ (.inr ⟨l, e⟩)
  · exact OnChannel.refl c s

theorem reportLimit_channels (l : LimitNo) : (reportLimit c l s).channels = s.channels := by
  unfold reportLimit
  split
  · exact (report_eventOnly _ _ s).channels
  · rfl

/-- The report of a limit: the condition of its source is the limit's (R36). -/
theorem reportLimit_cond (l : LimitNo) (q : Source) :
    cond (reportLimit c l s) q =
      if limitSource c l = some q then s.channels[c].limit l == .tripped else cond s q := by
  unfold reportLimit
  split
  · next src e =>
    rw [report_cond, e]
    by_cases h : q = src
    · rw [if_pos h, if_pos (by rw [h])]
    · rw [if_neg h, if_neg fun k => h (Option.some.inj k).symm]
  · next e => rw [e, if_neg (by simp)]

theorem reportLimits_limitsAt : LimitsAt c (reportLimits c s) := by
  intro l src e
  unfold reportLimits
  simp only [reportLimit_cond, reportLimit_channels]
  cases l with
  | l1 =>
    rw [if_neg (fun h => absurd (limitSource_apart e h).2 (by decide)), if_pos e]
  | l2 => rw [if_pos e]

end

/-! ## The evaluation of a limit (R37) -/

theorem withLimit_limit (x : Channel) (l m : LimitNo) (st : LimitState) :
    (x.withLimit l st).limit m = if m = l then st else x.limit m := by
  cases l <;> cases m <;> rfl

theorem withLimit_state (x : Channel) (l : LimitNo) (st : LimitState) : (x.withLimit l st).state = x.state := by
  cases l <;> rfl

theorem withLimit_mark (x : Channel) (l : LimitNo) (st : LimitState) : (x.withLimit l st).mark = x.mark := by
  cases l <;> rfl

theorem withLimit_value (x : Channel) (l : LimitNo) (st : LimitState) : (x.withLimit l st).value = x.value := by
  cases l <;> rfl

theorem setChannel_channels (c : Ch) (x : Channel) (s : State) (d : Ch) :
    (setChannel c x s).channels[d] = if d = c then x else s.channels[d] := by
  show (s.channels.set c x)[d] = _
  simp only [Fin.getElem_fin, Vector.getElem_set, Fin.ext_iff]
  by_cases h : c.val = d.val
  · rw [if_pos h, if_pos h.symm]
  · rw [if_neg h, if_neg (Ne.symm h)]

section
variable (c : Ch) (v : Nat) (l : LimitNo) (s : State)

/-- The channel with the limit's next state, and its report. -/
def judgedLimit : State := reportLimit c l (setChannel c (s.channels[c].withLimit l (limitNext s c l v)) s)

theorem judgedLimit_eventOnly :
    EventOnly (setChannel c (s.channels[c].withLimit l (limitNext s c l v)) s) (judgedLimit c v l s) := by
  unfold judgedLimit reportLimit
  split
  · exact report_eventOnly _ _ _
  · exact EventOnly.refl _

/-- The occurrence of a trip is all that an evaluation does after the report. -/
theorem evalLimit_state : evalLimit c v l s = judgedLimit c v l s ∨
    ∃ src, limitSource c l = some src ∧ limitNext s c l v = .tripped ∧ s.channels[c].limit l ≠ .tripped ∧
      evalLimit c v l s = occurNat src v (judgedLimit c v l s) := by
  unfold evalLimit judgedLimit
  dsimp only
  split
  · next src e =>
    split
    · next h => exact .inr ⟨src, e, h.1, h.2, rfl⟩
    · exact .inl rfl
  · exact .inl rfl

theorem evalLimit_eventOnly :
    EventOnly (setChannel c (s.channels[c].withLimit l (limitNext s c l v)) s) (evalLimit c v l s) := by
  rcases evalLimit_state c v l s with e | ⟨src, -, -, -, e⟩ <;> rw [e]
  · exact judgedLimit_eventOnly c v l s
  · exact (judgedLimit_eventOnly c v l s).trans (occurNat_eventOnly _ _ _)

theorem evalLimit_channels (d : Ch) : (evalLimit c v l s).channels[d] =
    if d = c then s.channels[c].withLimit l (limitNext s c l v) else s.channels[d] := by
  rw [(evalLimit_eventOnly c v l s).channels, setChannel_channels]

theorem evalLimit_cond (q : Source) : cond (evalLimit c v l s) q =
    if limitSource c l = some q then limitNext s c l v == .tripped else cond s q := by
  have judged : cond (judgedLimit c v l s) q =
      if limitSource c l = some q then limitNext s c l v == .tripped else cond s q := by
    unfold judgedLimit
    rw [reportLimit_cond, setChannel_channels, if_pos rfl, withLimit_limit, if_pos rfl]
    rfl
  rcases evalLimit_state c v l s with e | ⟨src, -, -, -, e⟩ <;> rw [e]
  · exact judged
  · exact (raise_cond _ _ q).trans judged

theorem evalLimit_onChannel : OnChannel c s (evalLimit c v l s) where
  channels := fun d hd => by rw [evalLimit_channels, if_neg hd]
  links := by rw [(evalLimit_eventOnly c v l s).line]; exact ⟨rfl, rfl⟩
  conds := fun q _ n => by rw [evalLimit_cond, if_neg fun h => n (.inr ⟨l, h⟩)]

/-- An evaluation leaves the fault of the channel. -/
theorem evalLimit_faultAt (k : FaultAt c s) : FaultAt c (evalLimit c v l s) := by
  have apart : limitSource c l ≠ some (srcChFault c) := fun h => by
    have := (limitSource_range h).1
    have := c.isLt
    rw [srcChFault_val] at *
    omega
  have same : channelFault (evalLimit c v l s) c = channelFault s c := by
    unfold channelFault
    rw [evalLimit_channels, if_pos rfl, withLimit_state, withLimit_mark]
  unfold FaultAt
  rw [evalLimit_cond, if_neg apart, same]
  exact k

/-- Both limits evaluated: their conditions are that they are TRIPPED. -/
theorem evalLimits_limitsAt : LimitsAt c (evalLimit c v .l2 (evalLimit c v .l1 s)) := by
  intro m src e
  simp only [evalLimit_cond, evalLimit_channels, if_true, withLimit_limit]
  cases m with
  | l1 =>
    rw [if_neg (fun h => absurd (limitSource_apart e h).2 (by decide)), if_pos e, if_neg (by decide), if_pos rfl]
  | l2 => rw [if_pos e, if_pos rfl]

end

/-! ## A channel's change of state (R28, R30, R31, R38) -/

section
variable (s : State) (c : Ch)

theorem channelOccur_keepsAll (cause aux : Nat) : Keeps (fun _ => False) s (channelOccur c cause aux s) :=
  channelOccur_keeps s c cause aux

/-- What follows the reports of a changed channel. -/
theorem channelChanged_reported (before : ValueState) :
    Keeps (fun _ => False) (reportFault c (reportLimits c s)) (channelChanged c before s) := by
  unfold channelChanged
  refine Keeps.ite (Keeps.refl _) (Keeps.trans ?_ (stateNotice_keeps _ c _))
  split
  · exact channelOccur_keeps _ _ _ _
  · exact channelOccur_keeps _ _ _ _
  · exact Keeps.refl _

theorem reportLimits_channels : (reportLimits c s).channels = s.channels := by
  unfold reportLimits
  rw [reportLimit_channels, reportLimit_channels]

theorem channelChanged_channels (before : ValueState) : (channelChanged c before s).channels = s.channels := by
  rw [(channelChanged_reported s c before).channels id, reportFault_channels, reportLimits_channels]

theorem channelChanged_onChannel (before : ValueState) : OnChannel c s (channelChanged c before s) :=
  (((reportLimit_onChannel s c .l1).trans (reportLimit_onChannel _ c .l2)).trans (reportFault_onChannel _ c)).trans
    ((channelChanged_reported s c before).onChannel id id c)

/-- A changed channel's conditions are those of its state. -/
theorem channelChanged_conditions (before : ValueState) :
    LimitsAt c (channelChanged c before s) ∧ FaultAt c (channelChanged c before s) :=
  ⟨(channelChanged_reported s c before).limitsAt id id c (reportFault_limitsAt _ c (reportLimits_limitsAt s c)),
    (channelChanged_reported s c before).faultAt id id c (reportFault_faultAt _ c)⟩

end

/-- Channels are written, each as of its own. -/
theorem foldl_setChannel (g : Ch → Channel) (cs : List Ch) : ∀ s : State, ∃ v : Vector Channel 16,
    cs.foldl (fun t c => setChannel c (g c) t) s = s.setChannels v ∧
      ∀ d : Ch, v[d] = if d ∈ cs then g d else s.channels[d] := by
  induction cs with
  | nil => exact fun s => ⟨s.channels, rfl, fun d => by simp⟩
  | cons c rest ih =>
    intro s
    obtain ⟨v, e, h⟩ := ih (setChannel c (g c) s)
    refine ⟨v, e, fun d => ?_⟩
    rw [h d, setChannel_channels]
    by_cases k : d ∈ rest
    · simp [k]
    · by_cases j : d = c
      · subst j; simp
      · simp [k, j]

/-- Channels take turns: where each turn makes good the conditions of its channel and leaves all the others, the
conditions of every channel are good at the end. `pre` is what a channel's turn needs, `inv` what every turn keeps. -/
theorem conditions_of_turns {op : Ch → State → State} {inv : State → Prop} {pre : Ch → State → Prop}
    (step : ∀ c t, inv t → inv (op c t) ∧ OnChannel c t (op c t))
    (good : ∀ c t, inv t → pre c t → LimitsAt c (op c t) ∧ FaultAt c (op c t))
    (keep : ∀ c d t, inv t → d ≠ c → pre d t → pre d (op c t)) (l : List Ch) :
    ∀ t, l.Nodup → inv t → (∀ c ∈ l, pre c t) → (∀ c, c ∉ l → LimitsAt c t ∧ FaultAt c t) → LinkLaw t →
      ConditionLaw (l.foldl (fun t c => op c t) t) := by
  induction l with
  | nil => exact fun t _ _ _ h k => (conditionLaw_iff t).2 ⟨fun c => h c (by simp), k⟩
  | cons c rest ih =>
    intro t nodup i p h k
    obtain ⟨new, nodup⟩ := List.nodup_cons.1 nodup
    obtain ⟨i', on⟩ := step c t i
    refine ih (op c t) nodup i' (fun d m => ?_) (fun d m => ?_) (on.linkLaw k)
    · exact keep c d t i (by rintro rfl; exact new m) (p d (List.mem_cons_of_mem _ m))
    · by_cases e : d = c
      · subst e
        exact good d t i (p d List.mem_cons_self)
      · have := h d (by simp [e, m])
        exact ⟨on.limitsAt e this.1, on.faultAt e this.2⟩

section
variable (s : State) (f : Ch → Channel → Channel) {cs : List Ch}

/-- Changed channels have the states they are given. -/
theorem changeChannels_channels (cs : List Ch) (d : Ch) :
    (changeChannels cs f s).channels[d] = if d ∈ cs then f d s.channels[d] else s.channels[d] := by
  obtain ⟨v, e, h⟩ := foldl_setChannel (fun c => f c s.channels[c]) cs s
  have notices : ∀ (l : List Ch) t, (l.foldl (fun t c => channelChanged c s.channels[c].state t) t).channels =
      t.channels := fun l => by
    induction l with
    | nil => exact fun _ => rfl
    | cons c rest ih => exact fun t => (ih _).trans (channelChanged_channels t c _)
  unfold changeChannels
  rw [notices, e]
  exact h d

theorem changeChannels_conditionLaw (nodup : cs.Nodup) (l : ConditionLaw s) : ConditionLaw (changeChannels cs f s) := by
  obtain ⟨v, e, h⟩ := foldl_setChannel (fun c => f c s.channels[c]) cs s
  obtain ⟨own, link⟩ := (conditionLaw_iff s).1 l
  unfold changeChannels
  rw [e]
  refine conditions_of_turns (inv := fun _ => True) (pre := fun _ _ => True)
    (fun c t _ => ⟨trivial, channelChanged_onChannel t c _⟩) (fun c t _ _ => channelChanged_conditions t c _)
    (fun _ _ _ _ _ _ => trivial) cs (s.setChannels v) nodup trivial (fun _ _ => trivial) (fun c m => ?_) link
  have same : (s.setChannels v).channels[c] = s.channels[c] := (h c).trans (if_neg m)
  refine ⟨fun m' src k => ?_, ?_⟩
  · rw [same]
    exact (own c).1 m' src k
  · unfold FaultAt
    rw [channelFault_congr same]
    exact (own c).2

end

end Sys2Proof.Machine

/-! # Samples and the conditions -/

namespace Sys2Proof.Machine

/-! ## What a taken value brings (R27, R29, R31 to R33, R37) -/

/-- What follows the report of the fault at a settle sample. -/
theorem settled_reported (s : State) (c : Ch) (before : ValueState) (raw : Nat) (clamped : Bool)
    (m : s.line.mode ≠ .bypass) :
    Keeps (fun _ => False) (reportFault c s) (takenEffects c (.settled before raw clamped) s) := by
  have start : (reportFault c s).line.mode ≠ .bypass :=
    (report_eventOnly (srcChFault c) (channelFault s c) s).mode.trans_ne m
  have s2 : Keeps (fun _ => False) (reportFault c s) _ :=
    Keeps.ite (c := clamped = true) (channelOccur_keeps (reportFault c s) c 3 raw) (Keeps.refl _)
  have s3 := s2.trans (Keeps.ite (c := c = 11) (channelOccur_keeps _ c 6 raw) (Keeps.refl _))
  have s4 := s3.trans (Keeps.ite (c := before = .lost) (stateNotice_keeps _ c .absentSettled) (Keeps.refl _))
  exact s4.trans (Keeps.ite (baselineNotice_keeps _ c (s4.notBypass id start)) (Keeps.refl _))

/-- The occurrences that come between the report of the fault and the limits of an accepted sample. -/
def acceptOccurs (c : Ch) (raw : Nat) (clamped : Bool) (jump : Option Nat) (s : State) : State :=
  jumpOccur c jump (if clamped then channelOccur c 3 raw (reportFault c s) else reportFault c s)

/-- The limits of an accepted sample, evaluated. -/
def acceptLimits (c : Ch) (raw v : Nat) (clamped : Bool) (jump : Option Nat) (s : State) : State :=
  evalLimit c v .l2 (evalLimit c v .l1 (acceptOccurs c raw clamped jump s))

theorem acceptOccurs_keeps (s : State) (c : Ch) (raw : Nat) (clamped : Bool) (jump : Option Nat) :
    Keeps (fun _ => False) (reportFault c s) (acceptOccurs c raw clamped jump s) := by
  unfold acceptOccurs
  refine Keeps.trans (Keeps.ite (c := clamped = true) (channelOccur_keeps _ c 3 raw) (Keeps.refl _)) ?_
  cases jump with
  | some d => exact channelOccur_keeps _ c 4 d
  | none => exact Keeps.refl _

/-- What follows the limits of an accepted sample. -/
theorem accepted_limited (s : State) (c : Ch) (before : ValueState) (raw v : Nat) (clamped : Bool) (delta : Nat)
    (jump : Option Nat) (dt : Nat) (m : s.line.mode ≠ .bypass) :
    Keeps (fun _ => False) (acceptLimits c raw v clamped jump s)
      (takenEffects c (.accepted before raw v clamped delta jump dt) s) := by
  have limited : Keeps (.channels = ·) s (acceptLimits c raw v clamped jump s) :=
    (((reportFault_keeps s c rfl).trans ((acceptOccurs_keeps s c raw clamped jump).mono fun _ => False.elim)).trans
      (evalLimit_keeps _ c v .l1 rfl)).trans (evalLimit_keeps _ c v .l2 rfl)
  have noticed := acceptedNotice_keeps (x := fun _ => False) _ id c v delta dt before (limited.notBypass (by simp) m)
  exact noticed.trans (Keeps.ite (Keeps.refl _) (stateNotice_keeps _ c .live))

section
variable (s : State) (c : Ch)

theorem acceptLimits_onChannel (raw v : Nat) (clamped : Bool) (jump : Option Nat) :
    OnChannel c s (acceptLimits c raw v clamped jump s) :=
  (((reportFault_onChannel s c).trans ((acceptOccurs_keeps s c raw clamped jump).onChannel id id c)).trans
    (evalLimit_onChannel c v .l1 _)).trans (evalLimit_onChannel c v .l2 _)

theorem takenEffects_onChannel (t : Taken) (m : s.line.mode ≠ .bypass) : OnChannel c s (takenEffects c t s) := by
  cases t with
  | short n => exact (channelOccur_keepsAll s c 5 n).onChannel id id c
  | outOfSet raw => exact (channelOccur_keepsAll s c 3 raw).onChannel id id c
  | settled before raw clamped =>
    exact (reportFault_onChannel s c).trans ((settled_reported s c before raw clamped m).onChannel id id c)
  | accepted before raw v clamped delta jump dt =>
    exact (acceptLimits_onChannel s c raw v clamped jump).trans
      ((accepted_limited s c before raw v clamped delta jump dt m).onChannel id id c)

/-- What the conditions of a channel need before its turn. -/
def TurnReady (t : Taken) (c : Ch) (s : State) : Prop :=
  match t with
  | .short _ | .outOfSet _ => LimitsAt c s ∧ FaultAt c s
  | .settled _ _ _ => LimitsAt c s
  | .accepted _ _ _ _ _ _ _ => True

theorem OnChannel.turnReady {c d : Ch} {s s' : State} (h : OnChannel c s s') (hd : d ≠ c) {t : Taken}
    (k : TurnReady t d s) : TurnReady t d s' := by
  cases t with
  | short | outOfSet => exact ⟨h.limitsAt hd k.1, h.faultAt hd k.2⟩
  | settled => exact h.limitsAt hd k
  | accepted => trivial

/-- After its turn a channel's conditions are those of its state. -/
theorem takenEffects_conditions (t : Taken) (m : s.line.mode ≠ .bypass) (k : TurnReady t c s) :
    LimitsAt c (takenEffects c t s) ∧ FaultAt c (takenEffects c t s) := by
  cases t with
  | short n =>
    have o := channelOccur_keepsAll s c 5 n
    exact ⟨o.limitsAt id id c k.1, o.faultAt id id c k.2⟩
  | outOfSet raw =>
    have o := channelOccur_keepsAll s c 3 raw
    exact ⟨o.limitsAt id id c k.1, o.faultAt id id c k.2⟩
  | settled before raw clamped =>
    have o := settled_reported s c before raw clamped m
    exact ⟨o.limitsAt id id c (reportFault_limitsAt s c k), o.faultAt id id c (reportFault_faultAt s c)⟩
  | accepted before raw v clamped delta jump dt =>
    have o := accepted_limited s c before raw v clamped delta jump dt m
    have fault := (acceptOccurs_keeps s c raw clamped jump).faultAt id id c (reportFault_faultAt s c)
    exact ⟨o.limitsAt id id c (evalLimits_limitsAt c v _),
      o.faultAt id id c (evalLimit_faultAt c v .l2 _ (evalLimit_faultAt c v .l1 _ fault))⟩

end

/-! ## A sample frame (R26, R27) -/

theorem nodup_eraseDups (n : Nat) : ∀ l : List Ch, l.length ≤ n → l.eraseDups.Nodup := by
  induction n with
  | zero => intro l h; rw [List.length_eq_zero_iff.1 (Nat.le_zero.1 h)]; exact List.nodup_nil
  | succ n ih =>
    intro l h
    cases l with
    | nil => exact List.nodup_nil
    | cons a rest =>
      rw [List.eraseDups_cons]
      refine List.nodup_cons.2 ⟨by simp, ih _ ((List.length_filter_le _ _).trans ?_)⟩
      simpa using h

/-- Each channel takes one turn. -/
theorem noticeSequence_nodup (order : List Ch) {ms : List Ch} (h : ms.Nodup) : (noticeSequence order ms).Nodup := by
  unfold noticeSequence
  refine List.nodup_append.2 ⟨nodup_eraseDups _ _ (Nat.le_refl _), h.filter _, fun a ha b hb e => ?_⟩
  subst e
  simp only [List.mem_eraseDups, List.mem_filter] at ha hb
  simp_all

/-- The channels that take a turn are the matched ones. -/
theorem mem_noticeSequence (order ms : List Ch) (c : Ch) : c ∈ noticeSequence order ms ↔ c ∈ ms := by
  unfold noticeSequence
  simp only [List.mem_append, List.mem_eraseDups, List.mem_filter]
  by_cases h : c ∈ order <;> simp [h]

theorem matchedChannels_nodup (s : State) (f : Frame) : (matchedChannels s f).Nodup := (List.nodup_finRange 16).filter _

/-- What a channel makes of its raw value leaves its limits, and all of it where the code is out of its set. -/
theorem takeRaw_cases (s : State) (c : Ch) (raw : Nat) :
    takeRaw s c raw = (s.channels[c], .outOfSet raw) ∨ takeRaw s c raw = settle s c raw ∨
      takeRaw s c raw = accept s c raw := by
  unfold takeRaw
  dsimp only
  split
  · exact .inl rfl
  · split
    · exact .inr (.inl rfl)
    · exact .inr (.inr rfl)

theorem takeFrom_cases (s : State) (f : Frame) (c : Ch) :
    (takeFrom s f c = (s.channels[c], .short f.values.length)) ∨
      ∃ w : Word, ((binding s c).bind fun b => f.values[b.index]?) = some w ∧ takeFrom s f c = takeRaw s c w.toNat := by
  unfold takeFrom
  split
  · next w e => exact .inr ⟨w, e, rfl⟩
  · exact .inl rfl

theorem limitsAt_congr {c : Ch} {s t : State} (e : t.event = s.event)
    (l : ∀ l, t.channels[c].limit l = s.channels[c].limit l) (k : LimitsAt c s) : LimitsAt c t := by
  intro m src h
  have := k m src h
  unfold cond at *
  rw [e, l, this]

theorem faultAt_congr {c : Ch} {s t : State} (e : t.event = s.event) (h : t.channels[c] = s.channels[c])
    (k : FaultAt c s) : FaultAt c t := by
  unfold FaultAt cond at *
  rw [e, channelFault_congr h, k]

/-- A channel that finds the frame short, or the code out of its set, is as it was; settling leaves its limits. -/
theorem takeFrom_ready (s : State) (f : Frame) (c : Ch) (own : LimitsAt c s ∧ FaultAt c s) {t : State}
    (e : t.channels[c] = (takeFrom s f c).1) (ev : t.event = s.event) : TurnReady (takeFrom s f c).2 c t := by
  have same : t.channels[c] = s.channels[c] → LimitsAt c t ∧ FaultAt c t := fun h =>
    ⟨limitsAt_congr ev (fun l => by rw [h]) own.1, faultAt_congr ev h own.2⟩
  rcases takeFrom_cases s f c with h | ⟨w, -, h⟩
  · rw [h] at e ⊢
    exact same e
  · rw [h] at e ⊢
    rcases takeRaw_cases s c w.toNat with k | k | k <;> rw [k] at e ⊢
    · exact same e
    · exact limitsAt_congr ev (fun l => by rw [e]; cases l <;> rfl) own.1
    · trivial

theorem channelUnitTakes_conditionLaw {s : State} (f : Frame) (m : s.line.mode ≠ .bypass) (l : ConditionLaw s) :
    ConditionLaw (channelUnitTakes f s) := by
  obtain ⟨v, e, h⟩ := foldl_setChannel (fun c => (takeFrom s f c).1) (matchedChannels s f) s
  obtain ⟨own, link⟩ := (conditionLaw_iff s).1 l
  unfold channelUnitTakes
  dsimp only
  rw [e]
  refine conditions_of_turns (inv := fun t => t.line.mode ≠ .bypass)
    (pre := fun c t => TurnReady (takeFrom s f c).2 c t)
    (fun c t i => ⟨(takenEffects_keeps (x := (· = .channels)) t (by simp) rfl c _ i).notBypass (by simp) i,
      takenEffects_onChannel t c _ i⟩)
    (fun c t i k => takenEffects_conditions t c _ i k)
    (fun c d t i hd k => (takenEffects_onChannel t c _ i).turnReady hd k) _ (s.setChannels v)
    (noticeSequence_nodup _ (matchedChannels_nodup s f)) m (fun c k => ?_) (fun c k => ?_) link
  · exact takeFrom_ready s f c (own c) ((h c).trans (if_pos ((mem_noticeSequence _ _ c).1 k))) rfl
  · have same : (s.setChannels v).channels[c] = s.channels[c] :=
      (h c).trans (if_neg fun n => k ((mem_noticeSequence _ _ c).2 n))
    exact ⟨limitsAt_congr (s := s) rfl (fun l => by rw [same]) (own c).1, faultAt_congr (s := s) rfl same (own c).2⟩

/-! ## The links (R2) -/

/-- A link's state is written and reported. -/
theorem reportLinkDown_conditionLaw {s : State} (p : Port) (x : PortLink) (l : ConditionLaw s) :
    ConditionLaw (reportLinkDown (setLink p x s)) := by
  have ev := report_eventOnly srcLinkDown (linkDownCond (setLink p x s)) (setLink p x s)
  have channels : (setLink p x s).channels = s.channels := by cases p <;> rfl
  have conds : ∀ q, cond (setLink p x s) q = cond s q := fun q => by cases p <;> rfl
  obtain ⟨own, -⟩ := (conditionLaw_iff s).1 l
  have kept : ∀ c q, OfChannel c q → cond (reportLinkDown (setLink p x s)) q = cond s q := fun c q o => by
    unfold reportLinkDown
    rw [report_cond, if_neg (fun e : q = srcLinkDown => not_ofChannel_link c (e ▸ o)), conds]
  have same : (reportLinkDown (setLink p x s)).channels = s.channels := ev.channels.trans channels
  refine (conditionLaw_iff _).2 ⟨fun c => ⟨fun m src e => ?_, ?_⟩, ?_⟩
  · rw [kept c src (.inr ⟨m, e⟩), same]
    exact (own c).1 m src e
  · unfold FaultAt
    rw [kept c _ (.inl rfl), channelFault_congr (s := s) (by rw [same])]
    exact (own c).2
  · have line : linkDownCond (reportLinkDown (setLink p x s)) = linkDownCond (setLink p x s) := by
      unfold linkDownCond reportLinkDown
      rw [ev.line]
    unfold LinkLaw
    rw [line]
    exact (report_cond _ _ _ _).trans (if_pos rfl)

theorem fallDown_conditionLaw {s : State} (p : Port) (l : ConditionLaw s) : ConditionLaw (fallDown p s) :=
  (Keeps.occurNat (x := fun _ => False) _ _ _).conditionLaw id id (reportLinkDown_conditionLaw p _ l)

/-! ## Frames that arrive -/

theorem fieldDispose_conditionLaw {s : State} (f : Frame) (l : ConditionLaw s) : ConditionLaw (fieldDispose f s) := by
  unfold fieldDispose
  split
  · exact l
  · next m =>
    have taken : Keeps (· = .channels) s (if f.kind = kindSample then channelUnitTakes f s else s) :=
      Keeps.ite (channelUnitTakes_keeps (x := (· = .channels)) s (by simp) rfl f m) (Keeps.refl s)
    refine (offerForward_keeps (x := fun _ => False) _ f (taken.notBypass (by simp) m)).conditionLaw id id ?_
    split
    · exact channelUnitTakes_conditionLaw f m l
    · exact l

theorem arrive_conditionLaw {s : State} (p : Port) (bytes : List Byte) (l : ConditionLaw s) :
    ConditionLaw (arrive p s bytes) := by
  unfold arrive
  split
  · next f _ =>
    have linked := reportLinkDown_conditionLaw p { up := true, everUp := true, timerStart := s.now } l
    cases p with
    | field => exact fieldDispose_conditionLaw f linked
    | cab => exact (cabDispose_keeps (x := fun _ => False) _ f).conditionLaw id id linked
  · exact (Keeps.occurNat (x := fun _ => False) s _ _).conditionLaw id id l

theorem arriveRun_conditionLaw {s : State} (p : Port) (bytes : List Byte) (l : ConditionLaw s) :
    ConditionLaw (arriveRun p bytes (beginJudging s)) :=
  List.foldlRecOn (motive := ConditionLaw) _ _
    ((Keeps.judged (x := fun _ => False) s (waiting s)).conditionLaw id id l) fun _ h b _ => arrive_conditionLaw p b h

/-! ## MODE and ACTIVATE -/

theorem enterBypass_conditionLaw {s : State} (l : ConditionLaw s) : ConditionLaw (enterBypass s) := by
  have mode : Keeps (· = .mode) s (setMode .bypass s) := setMode_keeps s .bypass (.inl rfl)
  have emptied := mode.trans (emptyFifos_keeps _)
  have candidate := emptied.trans (recomputeCandidate_keeps _)
  have changed := changeChannels_conditionLaw _ (fun _ y => y.withdrawn .absentUnsettled) (List.nodup_finRange 16)
    (candidate.conditionLaw (by simp) (by simp) l)
  exact ((ratesBypass_keeps (x := fun _ => False) _).trans (governorBypass_keeps _)).conditionLaw id id changed

theorem channelActivated_conditionLaw {s : State} (old : List Page) (l : ConditionLaw s) :
    ConditionLaw (channelActivated old s) :=
  changeChannels_conditionLaw _ _ (List.nodup_finRange 16)
    (((unbindSetpoint_keeps (x := fun _ => False) s old .pump1).trans (unbindSetpoint_keeps _ old .pump2)).conditionLaw
      id id l)

theorem activated_conditionLaw {s : State} (n : TableNo) (old : List Page) (l : ConditionLaw s) :
    ConditionLaw (applyTable n old (activateTable n s)) := by
  have written : ConditionLaw (activateTable n s) :=
    (activateTable_keeps (x := fun p => p = .tables ∨ p = .rods) s n (.inl rfl) (.inr (.inr rfl))).conditionLaw
      (by simp) (by simp) l
  unfold applyTable
  split
  · exact channelActivated_conditionLaw old written
  · exact (routeActivated_keeps (x := fun _ => False) _).conditionLaw id id written
  · exact (refindSegment_keeps (x := fun _ => False) _).conditionLaw id id written
  · exact (rodclassActivated_keeps (x := fun _ => False) _).conditionLaw id id written
  · exact (settingsActivated_keeps (x := fun _ => False) _).conditionLaw id id written
  · exact written

theorem activateBody_conditionLaw (f : Frame) {s : State} (l : ConditionLaw s) : ConditionLaw (activateBody f s).1 := by
  unfold activateBody
  split
  · exact l
  · next n _ =>
    split
    · exact l
    · rw [apply_ite Prod.fst]
      exact iteInduction
        (fun _ => (Keeps.bill (x := (· = .job)) s _ (by rfl) fun h => absurd rfl h).conditionLaw (by simp) (by simp) l)
        fun _ => activated_conditionLaw n _ l

theorem modeBody_conditionLaw (f : Frame) {s : State} (l : ConditionLaw s) : ConditionLaw (modeBody f s).1 := by
  have other : ∀ m, ConditionLaw (if s.line.mode = .bypass then leaveBypass m s else changeInLine m s) := fun m =>
    (Keeps.ite (leaveBypass_keeps (x := (· = .mode)) s m rfl) (changeInLine_keeps s m (.inl rfl))).conditionLaw
      (by simp) (by simp) l
  unfold modeBody
  split
  · exact l
  · next m _ =>
    rw [apply_ite Prod.fst, apply_ite Prod.fst]
    refine iteInduction (fun _ => l) fun _ => ?_
    refine iteInduction (fun _ => l) fun _ => ?_
    split
    · exact l
    · unfold changeMode
      split
      · exact enterBypass_conditionLaw l
      · exact other _

/-- A request whose own rule keeps the law. -/
theorem takeRequest_conditionLaw {kind countFits : Nat → Bool} {whileEnding : Bool}
    {body : Frame → State → State × Option Reply} {s : State} (l : ConditionLaw s)
    (h : ∀ f t, ConditionLaw t → ConditionLaw (body f t).1) :
    ConditionLaw (takeRequest kind countFits whileEnding body s) :=
  have placed : ∀ g t, ConditionLaw t → ConditionLaw (placeResponse g t) := fun g t =>
    (placeResponse_keeps (x := fun _ => False) t g).conditionLaw id id
  have took : ∀ {f rest}, s.line.requests = f :: rest → ConditionLaw (taken rest s) := fun e =>
    (taken_keeps (x := fun _ => False) s e).conditionLaw id id l
  takeRequest_elim l (fun _ _ _ e => placed _ _ (took e)) fun f _ e _ =>
    have b := h f _ (took e)
    ⟨b, fun g => placed g _ b⟩

theorem Ends.conditionLaw {s u t : State} (h : Ends s u t) (l : ConditionLaw u) : ConditionLaw t :=
  (h.keeps (x := (· = .waits)) rfl).conditionLaw (by simp) (by simp) l

/-- A settle sample that expires leaves the limits, and no fault before or after (R28, R31). -/
theorem unsettled_conditionLaw {s : State} {c : Ch} (due : settleDue s c = true) (l : ConditionLaw s) :
    ConditionLaw (setChannel c s.channels[c].unsettled s) := by
  have settled : s.channels[c].state = .absentSettled := by
    simp only [settleDue, Bool.and_eq_true, beq_iff_eq] at due
    exact due.1.2
  obtain ⟨own, link⟩ := (conditionLaw_iff s).1 l
  refine (conditionLaw_iff _).2 ⟨fun d => ⟨?_, ?_⟩, link⟩
  · refine limitsAt_congr (s := s) rfl (fun m => ?_) (own d).1
    rw [setChannel_channels]
    split
    · next e => subst e; cases m <;> rfl
    · rfl
  · have same : channelFault (setChannel c s.channels[c].unsettled s) d = channelFault s d := by
      unfold channelFault
      rw [setChannel_channels]
      by_cases e : d = c
      · subst e
        rw [if_pos rfl, settled]
        rfl
      · rw [if_neg e]
    exact (own d).2.trans same.symm

theorem exec_keeps_conditionLaw {i : Instr} {s t : State} (l : ConditionLaw s) (h : exec i s = .next t) :
    ConditionLaw t := by
  have due : ∀ {b : Prop} [Decidable b] {u : State}, (b → ConditionLaw u) →
      ConditionLaw (if b then admitted s u else s) := by
    intro b _ u k
    split
    · next hb => exact (Ends.admitted s u).conditionLaw (k hb)
    · exact l
  cases i
  case powerOnReset =>
    obtain rfl := Host.Outcome.next.inj h
    obtain ⟨a, b, c⟩ := Tests.witness_sizes_conditions.2.2
    exact ⟨a, b, c⟩
  case frameArrival p bytes =>
    obtain rfl := Host.Outcome.next.inj h
    exact (Ends.judged s _).conditionLaw (arriveRun_conditionLaw p bytes l)
  case shortFrame p bytes =>
    obtain rfl := Host.Outcome.next.inj h
    exact (Ends.judged s _).conditionLaw (arriveRun_conditionLaw p bytes l)
  case linkDown p =>
    obtain rfl := Host.Outcome.next.inj h
    exact due fun _ => fallDown_conditionLaw p l
  case channelStale c =>
    obtain rfl := Host.Outcome.next.inj h
    exact due fun _ => changeChannels_conditionLaw s _ (List.nodup_singleton c) l
  case channelLost c =>
    obtain rfl := Host.Outcome.next.inj h
    exact due fun _ => changeChannels_conditionLaw s _ (List.nodup_singleton c) l
  case settleExpiry c =>
    obtain rfl := Host.Outcome.next.inj h
    exact iteInduction (fun k => unsettled_conditionLaw k l) fun _ => l
  case mode =>
    obtain rfl := Host.Outcome.next.inj h
    exact (Ends.admitted s _).conditionLaw (takeRequest_conditionLaw l fun f t => modeBody_conditionLaw f)
  case activate =>
    obtain rfl := Host.Outcome.next.inj h
    exact (Ends.admitted s _).conditionLaw (takeRequest_conditionLaw l fun f t => activateBody_conditionLaw f)
  all_goals exact (exec_keeps h (by simp)).conditionLaw (by simp [exempt]) (by simp [exempt]) l

/-- Settles O55: a channel's turn makes good its own conditions and touches no other's (`conditions_of_turns`), a link's
report its own; every other command keeps states and conditions alike. -/
theorem stepsKeepConditions : Obligations.StepsKeepConditions :=
  step_keeps_law (fun _ _ ⟨a, b, c⟩ => ⟨a, b, c⟩) (fun _ _ ⟨a, b, c⟩ => ⟨a, b, c⟩) fun _ _ _ => exec_keeps_conditionLaw

/-! ## BYPASS (R13, R15, R18, R30, R57, R89, R191) -/

/-- Every channel is ABSENT unsettled. -/
def AllAbsent (s : State) : Prop := ∀ c : Ch, s.channels[c].state = .absentUnsettled

theorem bypassLaw_iff (s : State) : BypassLaw s ↔ s.line.bypassOut = bypassAsserted s ∧
    (s.line.mode = .bypass → AllAbsent s ∧ LineRest s ∧ CircRest s ∧ DepthRest s ∧ GovRest s) := by
  constructor
  · rintro ⟨h1, h2, h3, h4, h5, h6, h7, h8, h9, h10, h11, h12, h13⟩
    exact ⟨h1, fun m => ⟨h5 m, ⟨h2 m, h3 m, h4 m⟩, ⟨h6 m, h7 m⟩, ⟨h8 m, h9 m, h10 m⟩, ⟨h11 m, h12 m, h13 m⟩⟩⟩
  · rintro ⟨h1, h⟩
    exact ⟨h1, fun m => (h m).2.1.forward, fun m => (h m).2.1.downstream, fun m => (h m).2.1.injections,
      fun m => (h m).1, fun m => (h m).2.2.1.rate1, fun m => (h m).2.2.1.rate2, fun m => (h m).2.2.2.1.activity,
      fun m => (h m).2.2.2.1.candidate, fun m => (h m).2.2.2.1.dwell, fun m => (h m).2.2.2.2.setpoint1,
      fun m => (h m).2.2.2.2.setpoint2, fun m => (h m).2.2.2.2.holder⟩

/-- What keeps the mode, and the channels in BYPASS, keeps the law. -/
theorem Keeps.bypassLaw {x : Part → Prop} {s t : State} (h : Keeps x s t) (hm : ¬x .mode)
    (hc : s.line.mode = .bypass → AllAbsent s → AllAbsent t) (l : BypassLaw s) : BypassLaw t := by
  rw [bypassLaw_iff] at *
  obtain ⟨out, rest⟩ := l
  refine ⟨h.out out, fun m => ?_⟩
  have b : s.line.mode = .bypass := by
    rcases h.mode hm with e | ⟨-, e⟩
    · exact e.symm.trans m
    · rw [m] at e; cases e
  obtain ⟨a, line, circ, depth, gov⟩ := rest b
  have k := h.rest hm b
  exact ⟨hc b a, k.line line, k.circ circ, k.depth depth, k.gov gov⟩

/-- What leads out of BYPASS, or between OBSERVE and GOVERN, meets the law. -/
theorem Keeps.inLine {x : Part → Prop} {s t : State} (h : Keeps x s t) (m : t.line.mode ≠ .bypass) (l : BypassLaw s) :
    BypassLaw t := by
  rw [bypassLaw_iff] at *
  exact ⟨h.out l.1, fun b => absurd b m⟩

theorem setActivity_depth (a : Activity) (s : State) : (setActivity a s).depth = { s.depth with activity := a } := by
  unfold setActivity
  split
  · next h => rw [← h]
  · exact (setCondition_eventOnly _ _ _ _).depth

/-- A candidate that does not wait for the dwell is the activity at once, and none is held (R59). -/
theorem takeCandidate_depth_of_immediate {a : Activity} (h : a.immediate = true) (s : State) :
    (takeCandidate a s).depth = { s.depth with activity := a, candidate := a, dwellStart := none } := by
  rw [takeCandidate, if_pos (.inl h), setActivity_depth]
  rfl

/-- In BYPASS the recomputed activity is UNTRACKED, with no dwell (R57, R59). -/
theorem recomputeCandidate_rest {s : State} (b : s.line.mode = .bypass) : DepthRest (recomputeCandidate s) := by
  unfold recomputeCandidate
  rw [activityCandidate_bypass s b]
  have e := takeCandidate_depth_of_immediate (a := .untracked) rfl s
  exact ⟨by rw [e], by rw [e], by rw [e]⟩

theorem pumpingChanged_eventOnly (s : State) : EventOnly s (pumpingChanged s) :=
  (setCondition_eventOnly _ _ _ s).trans (setCondition_eventOnly _ _ _ _)

/-- A pump's rate is set; the other's stays, and of the circulation unit only the flow in follows (R88, R89). -/
theorem setRate_circ (p : Pump) (r : Option Nat) (s : State) : (setRate p r s).circ = { s.circ with
    rate1 := match p with | .one => r | .two => s.circ.rate1
    rate2 := match p with | .one => s.circ.rate2 | .two => r
    flowIn := (setRate p r s).circ.flowIn } := by
  unfold setRate
  split
  · next h => cases p <;> subst h <;> rfl
  · rw [(pumpingChanged_eventOnly _).circ]
    cases p <;> rfl

/-- Both stroke rates become absent (R89). -/
theorem ratesBypass_circ (s : State) : (ratesBypass s).circ =
    { s.circ with rate1 := none, rate2 := none, flowIn := (ratesBypass s).circ.flowIn } := by
  have a := setRate_circ .one none s
  have b := setRate_circ .two none (setRate .one none s)
  unfold ratesBypass
  rw [b, a]

/-- The state in which the channels become ABSENT as BYPASS is entered (R15). -/
def bypassEntered (s : State) : State :=
  recomputeCandidate ((setMode .bypass s).setLine
    { (setMode .bypass s).line with forward := [], downstream := [], injections := [] })

/-- The state after the channels have become ABSENT as BYPASS is entered (R15, R30). -/
def channelsWithdrawn (s : State) : State :=
  changeChannels (List.finRange 16) (fun _ x => x.withdrawn .absentUnsettled) (bypassEntered s)

theorem enterBypass_eq (s : State) : enterBypass s = governorBypass (ratesBypass (channelsWithdrawn s)) := rfl

theorem channelsWithdrawn_keeps (s : State) : Keeps (.channels = ·) (bypassEntered s) (channelsWithdrawn s) :=
  changeChannels_keeps _ rfl _ _

theorem channelsWithdrawn_channels (s : State) (c : Ch) :
    (channelsWithdrawn s).channels[c] = (bypassEntered s).channels[c].withdrawn .absentUnsettled :=
  (changeChannels_channels _ _ _ c).trans (if_pos (List.mem_finRange c))

theorem bypassEntered_mode (s : State) : (bypassEntered s).line.mode = .bypass :=
  ((recomputeCandidate_calm _).mode).trans rfl

theorem enterBypass_bypassLaw {s : State} (out : s.line.bypassOut = bypassAsserted s) : BypassLaw (enterBypass s) := by
  have mode := bypassEntered_mode s
  have line : LineRest (bypassEntered s) :=
    ((recomputeCandidate_keeps (x := fun _ => False) _).rest id rfl).line ⟨rfl, rfl, rfl⟩
  have depth : DepthRest (bypassEntered s) := recomputeCandidate_rest rfl
  have ends : Keeps (fun _ => False) (channelsWithdrawn s) (enterBypass s) :=
    (ratesBypass_keeps _).trans (governorBypass_keeps _)
  have k := (channelsWithdrawn_keeps s).rest (by simp) mode
  have mode' := (channelsWithdrawn_keeps s).bypass (by simp) mode
  have k' := ends.rest id mode'
  have rates : CircRest (enterBypass s) := by
    have e : (enterBypass s).circ = (ratesBypass (channelsWithdrawn s)).circ := rfl
    rw [ratesBypass_circ] at e
    exact ⟨by rw [e], by rw [e]⟩
  refine (bypassLaw_iff _).2 ⟨(enterBypass_keeps (x := fun p => p = .mode ∨ p = .channels) s (.inl rfl) (.inr rfl)).out out,
    fun _ => ⟨fun c => ?_, k'.line (k.line line), rates, k'.depth (k.depth depth), ⟨rfl, rfl, rfl⟩⟩⟩
  rw [ends.channels id, channelsWithdrawn_channels]
  rfl

/-! ## Activations, samples and timers in BYPASS -/

theorem reboundChannel_absent {old : List Page} {s : State} {c : Ch} {x : Channel} (h : x.state = .absentUnsettled) :
    (reboundChannel old s c x).state = .absentUnsettled := by
  unfold reboundChannel
  split
  · rfl
  · rw [if_neg (by rw [h]; decide)]
    split
    · rfl
    · exact h

/-- An ABSENT unsettled channel is so after an activation (R42). -/
theorem channelActivated_absent {old : List Page} {s : State} (h : AllAbsent s) : AllAbsent (channelActivated old s) := by
  intro c
  have same : (unbindSetpoint old .pump2 (unbindSetpoint old .pump1 s)).channels = s.channels :=
    ((unbindSetpoint_keeps (x := fun _ => False) s old .pump1).trans (unbindSetpoint_keeps _ old .pump2)).channels id
  unfold channelActivated
  rw [changeChannels_channels, if_pos (List.mem_finRange c), same]
  unfold activatedChannel
  rw [withLimit_state, withLimit_state]
  exact reboundChannel_absent (h c)

theorem applyTable_absent {n : TableNo} {old : List Page} {s : State} (h : AllAbsent s) :
    AllAbsent (applyTable n old s) := by
  have kept : ∀ {t}, Keeps (fun _ => False) s t → AllAbsent t := fun k c => by rw [k.channels id]; exact h c
  unfold applyTable
  split
  · exact channelActivated_absent h
  · exact kept (routeActivated_keeps s)
  · exact kept (refindSegment_keeps s)
  · exact kept (rodclassActivated_keeps s)
  · exact kept (settingsActivated_keeps s)
  · exact h

theorem activateBody_absent (f : Frame) {s : State} (h : AllAbsent s) : AllAbsent (activateBody f s).1 := by
  unfold activateBody
  split
  · exact h
  · next n _ =>
    split
    · exact h
    · rw [apply_ite Prod.fst]
      exact iteInduction (fun _ => h) fun _ => applyTable_absent (s := activateTable n s) h

/-- No timer of an ABSENT unsettled channel runs (R28). -/
theorem not_due_of_absent {s : State} {c : Ch} (h : s.channels[c].state = .absentUnsettled) :
    staleDue s c = false ∧ lostDue s c = false ∧ settleDue s c = false := by
  unfold staleDue lostDue settleDue
  rw [h]
  simp

theorem modeBody_bypassLaw (f : Frame) {s : State} (l : BypassLaw s) : BypassLaw (modeBody f s).1 := by
  unfold modeBody
  split
  · exact l
  · next m _ =>
    rw [apply_ite Prod.fst, apply_ite Prod.fst]
    refine iteInduction (fun _ => l) fun _ => ?_
    refine iteInduction (fun _ => l) fun _ => ?_
    split
    · exact l
    · unfold changeMode
      split
      · exact enterBypass_bypassLaw l.output
      · next other =>
        have mode : ∀ t, (recomputeCandidate t).line.mode = t.line.mode := fun t => (recomputeCandidate_calm t).mode
        refine iteInduction (fun _ => ?_) fun _ => ?_
        · refine (leaveBypass_keeps (x := (.mode = ·)) s m rfl).inLine ?_ l
          exact ((mode _).trans (pitLeaveBypass_calm _).mode).trans_ne other
        · exact (changeInLine_keeps (x := (.mode = ·)) s m (.inl rfl)).inLine ((mode _).trans_ne other) l

theorem Ends.bypassLaw {s u t : State} (h : Ends s u t) (l : BypassLaw u) : BypassLaw t := by
  have k := h.keeps (x := (.waits = ·)) rfl
  exact k.bypassLaw (by simp) (fun _ a c => by rw [k.channels (by simp)]; exact a c) l

theorem exec_keeps_bypassLaw {i : Instr} {s t : State} (l : BypassLaw s) (h : exec i s = .next t) : BypassLaw t := by
  have timer : ∀ {b : Bool} {u : State}, (s.line.mode = .bypass → b = false) →
      Keeps (fun p => p = .channels ∨ p = .waits) s u → BypassLaw (if b then u else s) := by
    intro b u never k
    split
    · next hb =>
      have m : s.line.mode ≠ .bypass := fun m => by rw [never m] at hb; cases hb
      exact k.inLine (k.notBypass (by simp) m) l
    · exact l
  have changed : ∀ (c : Ch) f, Keeps (fun p => p = .channels ∨ p = .waits) s (admitted s (changeChannels [c] f s)) :=
    fun c f => (changeChannels_keeps s (.inl rfl) [c] f).trans (admitted_keeps _ _ (.inr rfl))
  cases i
  case powerOnReset =>
    obtain rfl := Host.Outcome.next.inj h
    have ⟨a1, a2, a3, a4, a5, a6, a7, a8, a9, a10, a11, a12, a13⟩ := Tests.witness_laws.1
    exact ⟨a1, a2, a3, a4, a5, a6, a7, a8, a9, a10, a11, a12, a13⟩
  case activate =>
    obtain rfl := Host.Outcome.next.inj h
    refine (Ends.admitted s _).bypassLaw ((takeRequest_keeps (x := fun p => p = .tables ∨ p = .channels ∨ p = .job) s _ _ _ _
      fun f t => activateBody_keeps t f (.inl rfl) (.inr (.inl rfl)) (.inr (.inr rfl))).bypassLaw (by simp) (fun _ a => ?_) l)
    exact takeRequest_elim (P := AllAbsent) a (fun _ _ _ _ => a) fun f rest _ _ =>
      have b := activateBody_absent f (s := taken rest s) a
      ⟨b, fun _ => b⟩
  case mode =>
    obtain rfl := Host.Outcome.next.inj h
    refine (Ends.admitted s _).bypassLaw ?_
    have same : ∀ {t u : State}, Keeps (fun _ => False) t u → BypassLaw t → BypassLaw u := fun k =>
      k.bypassLaw id fun _ a c => by rw [k.channels id]; exact a c
    exact takeRequest_elim l (fun _ _ _ e => same ((taken_keeps s e).trans (placeResponse_keeps _ _)) l) fun f rest e _ =>
      have b := modeBody_bypassLaw f (same (taken_keeps s e) l)
      ⟨b, fun _ => same (placeResponse_keeps _ _) b⟩
  case channelStale c =>
    obtain rfl := Host.Outcome.next.inj h
    exact timer (fun m => (not_due_of_absent (l.channels m c)).1) (changed c _)
  case channelLost c =>
    obtain rfl := Host.Outcome.next.inj h
    exact timer (fun m => (not_due_of_absent (l.channels m c)).2.1) (changed c _)
  case settleExpiry c =>
    obtain rfl := Host.Outcome.next.inj h
    exact timer (fun m => (not_due_of_absent (l.channels m c)).2.2) (setChannel_keeps s c _ (.inl rfl))
  all_goals
    have k := exec_keeps h (by simp)
    exact k.bypassLaw (by simp [exempt]) (fun b a c => by rw [k.channels (by simp [exempt, b])]; exact a c) l

/-- Settles O53: in BYPASS each unit keeps what BYPASS implies of it, no channel takes a sample and no timer of one runs;
MODE enters BYPASS with all of it, and every other command keeps the mode. -/
theorem stepsKeepBypassLaw : Obligations.StepsKeepBypassLaw :=
  step_keeps_law
    (fun _ _ ⟨a1, a2, a3, a4, a5, a6, a7, a8, a9, a10, a11, a12, a13⟩ =>
      ⟨a1, a2, a3, a4, a5, a6, a7, a8, a9, a10, a11, a12, a13⟩)
    (fun _ _ ⟨a1, a2, a3, a4, a5, a6, a7, a8, a9, a10, a11, a12, a13⟩ =>
      ⟨a1, a2, a3, a4, a5, a6, a7, a8, a9, a10, a11, a12, a13⟩)
    fun _ _ _ => exec_keeps_bypassLaw

end Sys2Proof.Machine

/-! # Steps, the completion response, resets and accruals -/

namespace Sys2Proof.Machine

/-- Settles O1. -/
theorem stepRunsFrontCommand : Obligations.StepRunsFrontCommand := fun _ _ _ => rfl

/-- Settles O15, by the two fields that the step looks at. -/
theorem completionResponseIsPlaced : Obligations.CompletionResponseIsPlaced := by
  intro s
  constructor
  · intro f free waits
    show Host.Outcome.next (match s.line.response, s.line.completion with
      | none, some f => s.setLine { s.line with response := some f, completion := none }
      | _, _ => s) = _
    rw [free, waits]
    rfl
  · intro h
    refine congrArg Host.Outcome.next ?_
    split
    · next free waits => rcases h with h | h <;> simp_all
    · rfl

/-- Settles O19: the settle sample's timer has run, and the step writes the channel alone. -/
theorem settledChannelExpires : Obligations.SettledChannelExpires := by
  intro s c other bound settled age
  have due : settleDue s c = true := by
    have some : (binding s c).isSome = true := Option.isSome_iff_ne_none.2 bound
    unfold settleDue
    rw [some, settled]
    simp only [Bool.true_and, beq_self_eq_true, Bool.and_true, Bool.and_eq_true, bne_iff_ne, decide_eq_true_eq]
    exact ⟨other, age⟩
  exact congrArg Host.Outcome.next (if_pos due)

/-- In reset the BYPASS output is asserted, whatever the mode (R13). -/
theorem bypassAsserted_of_inReset {s : State} (h : inReset s = true) : bypassAsserted s = true := by
  unfold bypassAsserted
  rw [h, Bool.or_true]

/-- Settles O49: the output is driven by what asserts it in reset. -/
theorem powerOnResetClears : Obligations.PowerOnResetClears := by
  intro s
  have held : inReset (s.setLine { s.line with resetHeld := true }) = true := Bool.true_or _
  have power : inReset (s.setLine { s.line with awaitingReset := true }) = true := Bool.or_true _
  exact ⟨rfl, held, bypassAsserted_of_inReset held, rfl, power, bypassAsserted_of_inReset power, rfl, rfl, rfl⟩

/-- The pending words of a table after power-on are 0, and no page is loaded (R193). -/
theorem tablesReset_clear (t : TableNo) : State.reset.tables[t].active = none ∧
    (∀ page ∈ State.reset.tables[t].pending, ∀ i : Fin 12, page[i] = 0) ∧
      ∀ b ∈ State.reset.tables[t].mask, b = false := by
  obtain ⟨n, e⟩ : ∃ n, State.reset.tables[t] = Table.reset n := by
    fin_cases t <;> exact ⟨_, rfl⟩
  rw [e]
  refine ⟨rfl, fun page m i => ?_, fun b m => ?_⟩
  · rw [List.eq_of_mem_replicate m]
    simp
  · exact List.eq_of_mem_replicate m

/-- Settles O50: a channel, an account, a class and a table after power-on stand for all of them. -/
theorem resetStateIsAsStated : Obligations.ResetStateIsAsStated := by
  have channel : ∀ c : Ch, State.reset.channels[c] = Channel.reset := fun c => Vector.getElem_replicate c.isLt
  have account : ∀ src : Source, State.reset.event.accounts[src] = Account.reset := fun src => Vector.getElem_replicate src.isLt
  have cls : ∀ k : AlarmClass, State.reset.event.classes[k] = .inactive := fun k => Vector.getElem_replicate k.isLt
  refine ⟨rfl, rfl, rfl, rfl, rfl, rfl, rfl, rfl, rfl, rfl, rfl, rfl, rfl, rfl, rfl, fun c => ?_, rfl, rfl, rfl, rfl, rfl,
    rfl, rfl, rfl, rfl, rfl, rfl, rfl, rfl, rfl, rfl, rfl, rfl, rfl, rfl, rfl, rfl, rfl, rfl, rfl, fun src => ?_, cls,
    rfl, rfl, rfl, tablesReset_clear⟩
  · rw [channel c]
    exact ⟨rfl, rfl, rfl, rfl, rfl⟩
  · rw [account src]
    exact ⟨rfl, rfl, rfl, rfl⟩

/-- Settles O51: the two witnesses of the tests. -/
theorem resetMeetsLaws : Obligations.ResetMeetsLaws := by
  obtain ⟨settled, fits, conditions⟩ := Tests.witness_sizes_conditions
  obtain ⟨bypass, job, rods, sums, -⟩ := Tests.witness_laws
  exact ⟨fits, settled, bypass, job, conditions, rods, sums⟩

/-- Settles O60: quotient and remainder of the division by the divisor are what the amount and the carry take. -/
theorem accrualKeepsCarry : Obligations.AccrualKeepsCarry := by
  intro l divisor q r pos quantity amount
  have euclid := Nat.div_add_mod (l.carry + q * r) divisor
  have some : ∀ n, n ≤ 4294967295 → min max32 n = n ∧ decide (max32 < n) = false := fun n h =>
    ⟨Nat.min_eq_right h, decide_eq_false (Nat.not_lt.2 h)⟩
  obtain ⟨q1, q2⟩ := some _ quantity
  obtain ⟨a1, a2⟩ := some _ amount
  refine ⟨q1, ?_, Nat.mod_lt _ pos, ?_⟩
  · show min max32 (l.amount + (l.carry + q * r) / divisor) * divisor + (l.carry + q * r) % divisor = _
    rw [a1, Nat.add_mul, Nat.mul_comm (_ / divisor)]
    omega
  · show (l.saturated || decide (max32 < l.quantity + q) || decide (max32 < l.amount + (l.carry + q * r) / divisor)) = _
    rw [q2, a2, Bool.or_false, Bool.or_false]

end Sys2Proof.Machine

/-! # Frames as bytes (R3, R9) -/

namespace Sys2Proof.Machine

theorem bytesToWords_flatMap_wordBytes (ws : List Word) : bytesToWords (ws.flatMap wordBytes) = ws := by
  induction ws with
  | nil => rfl
  | cons w ws ih =>
    have joined : w.extractLsb' 8 8 ++ w.extractLsb' 0 8 = w := by
      refine BitVec.eq_of_getLsbD_eq fun i hi => ?_
      rw [BitVec.getLsbD_append]
      split
      · next low => simp [low]
      · next high => simp [show i - 8 < 8 by omega, show 8 + (i - 8) = i by omega]
    simp only [List.flatMap_cons, wordBytes, List.cons_append, List.nil_append, bytesToWords]
    rw [ih]
    exact congrArg (· :: ws) joined

theorem wordBytes_append (a b : Byte) : wordBytes (a ++ b) = [a, b] := by
  have high : BitVec.extractLsb' 8 8 (a ++ b) = a := by
    refine BitVec.eq_of_getLsbD_eq fun i hi => ?_
    rw [BitVec.getLsbD_extractLsb', BitVec.getLsbD_append]
    simp [hi]
  have low : BitVec.extractLsb' 0 8 (a ++ b) = b := by
    refine BitVec.eq_of_getLsbD_eq fun i hi => ?_
    rw [BitVec.getLsbD_extractLsb', BitVec.getLsbD_append]
    simp [hi]
  exact congrArg₂ (fun x y => [x, y]) high low

theorem flatMap_wordBytes_bytesToWords : ∀ (n : Nat) (bytes : List Byte), bytes.length = 2 * n →
    (bytesToWords bytes).flatMap wordBytes = bytes ∧ (bytesToWords bytes).length = n
  | 0, [], _ => ⟨rfl, rfl⟩
  | n + 1, a :: b :: rest, h => by
    obtain ⟨same, len⟩ := flatMap_wordBytes_bytesToWords n rest (by simp at h; omega)
    simp only [bytesToWords, List.flatMap_cons, wordBytes_append, same, List.length_cons, len]
    exact ⟨rfl, trivial⟩
  | 0, _ :: _, h => by simp at h
  | n + 1, [], h => by simp at h
  | n + 1, [_], h => by simp at h; omega

theorem flatMap_wordBytes_length (ws : List Word) : (ws.flatMap wordBytes).length = 2 * ws.length := by
  induction ws with
  | nil => rfl
  | cons w ws ih => rw [List.flatMap_cons, List.length_append, ih]; simp [wordBytes]; omega

/-! ## Byte 0 and the NODE byte -/

theorem byte0_kind (k : BitVec 3) (c : BitVec 4) (g : Bool) : (k ++ c ++ BitVec.ofBool g).extractLsb' 5 3 = k := by
  revert k c g; decide

theorem byte0_count (k : BitVec 3) (c : BitVec 4) (g : Bool) : (k ++ c ++ BitVec.ofBool g).extractLsb' 1 4 = c := by
  revert k c g; decide

theorem byte0_governed (k : BitVec 3) (c : BitVec 4) (g : Bool) : (k ++ c ++ BitVec.ofBool g).getLsbD 0 = g := by
  revert k c g; decide

/-- A byte is its KIND, COUNT and GOVERNED bits. -/
theorem byte0_parts (b : Byte) :
    b.extractLsb' 5 3 ++ b.extractLsb' 1 4 ++ BitVec.ofBool (b.getLsbD 0) = b := by
  revert b; decide

theorem nodeByte_upper (n : BitVec 6) : ((0 : BitVec 2) ++ n).extractLsb' 6 2 = 0 := by
  revert n; decide

theorem nodeByte_node (n : BitVec 6) : ((0 : BitVec 2) ++ n).extractLsb' 0 6 = n := by
  revert n; decide

theorem nodeByte_parts (b : Byte) (h : b.extractLsb' 6 2 = 0) : (0 : BitVec 2) ++ b.extractLsb' 0 6 = b := by
  revert b; decide

/-! ## Both directions -/

theorem count_of_length {n : Nat} (h : n ≤ 15) : (BitVec.ofNat 4 n).toNat = n := by
  rw [BitVec.toNat_ofNat]; exact Nat.mod_eq_of_lt (by omega)

theorem parseFrame_frameBytes (f : Frame) (h : f.values.length ≤ 15) : parseFrame (frameBytes f) = some f := by
  have count : ((byte0 f).extractLsb' 1 4).toNat = f.values.length := by
    rw [byte0, byte0_count, count_of_length h]
  have len := flatMap_wordBytes_length f.values
  obtain ⟨kind, governed, node, tag, values⟩ := f
  simp only [frameBytes, bodyBytes, parseFrame, List.cons_append, count]
  rw [List.take_left' len, List.drop_left' len, nodeByte_upper, nodeByte_node, bytesToWords_flatMap_wordBytes]
  simp only [byte0, byte0_kind, byte0_governed]
  rw [if_pos ⟨by simp [len, wordBytes], trivial, trivial⟩]

theorem frameBytes_of_parseFrame {bytes : List Byte} {f : Frame} (h : parseFrame bytes = some f) :
    frameBytes f = bytes ∧ f.values.length ≤ 15 := by
  match bytes, h with
  | b0 :: b1 :: b2 :: rest, h =>
    simp only [parseFrame, Option.ite_none_right_eq_some, Option.some.injEq] at h
    obtain ⟨⟨len, upper, check⟩, rfl⟩ := h
    have few : (b0.extractLsb' 1 4).toNat ≤ 15 := Nat.le_of_lt_succ (b0.extractLsb' 1 4).isLt
    obtain ⟨same, count⟩ := flatMap_wordBytes_bytesToWords (b0.extractLsb' 1 4).toNat
      (rest.take (2 * (b0.extractLsb' 1 4).toNat)) (by rw [List.length_take]; omega)
    refine ⟨?_, count.trans_le few⟩
    have first : byte0 ⟨b0.extractLsb' 5 3, b0.getLsbD 0, b1.extractLsb' 0 6, b2,
        bytesToWords (rest.take (2 * (b0.extractLsb' 1 4).toNat))⟩ = b0 := by
      simp only [byte0, count, BitVec.ofNat_toNat, BitVec.setWidth_eq]
      exact byte0_parts b0
    simp only [frameBytes, bodyBytes, first, nodeByte_parts b1 upper, same, List.cons_append]
    rw [← check, List.take_append_drop]

/-- Settles O3. -/
theorem frameBytesReadBack : Obligations.FrameBytesReadBack :=
  ⟨parseFrame_frameBytes, fun _ _ h => frameBytes_of_parseFrame h⟩

end Sys2Proof.Machine

/-! # Calibration (R34) -/

namespace Sys2Proof.Machine

/-- Adding half the divisor before a division rounds to the nearest, an exact half up. -/
theorem half_added_bounds (n d : Nat) (pos : 0 < d) :
    2 * ((n + d / 2) / d * d) ≤ 2 * n + d ∧ 2 * n < 2 * ((n + d / 2) / d * d) + d := by
  have below := Nat.div_mul_le_self (n + d / 2) d
  have above := Nat.lt_div_mul_add (a := n + d / 2) pos
  omega

/-- A quotient that is nearest to |num| / den, with the sign of num put back, is nearest to num / den, and a half goes
away from zero. -/
theorem nearest_of_bounds {num den m : Int} (hden : 0 < den) (hm : 0 ≤ m) (low : 2 * m ≤ 2 * |num| + den)
    (high : 2 * |num| < 2 * m + den) {x : Int} (hx : x = if 0 ≤ num then m else -m) :
    2 * |num - x| ≤ den ∧ (2 * |num - x| = den → |num| < |x|) := by
  split at hx
  · next sign =>
    rw [abs_of_nonneg sign] at *
    subst hx
    rw [abs_of_nonneg hm]
    rcases abs_cases (num - x) with ⟨h, -⟩ | ⟨h, -⟩ <;> omega
  · next sign =>
    rw [abs_of_neg (not_le.mp sign)] at *
    subst hx
    rw [abs_neg, abs_of_nonneg hm]
    rcases abs_cases (num - -m) with ⟨h, -⟩ | ⟨h, -⟩ <;> omega

/-- The value above raw_lo's is the quotient with the sign of the product put back (R34). -/
theorem calibrated_sub (r lo hi : Nat) (engLow engHigh : Int) :
    let num := ((r : Int) - lo) * (engHigh - engLow)
    let q : Int := ((num.natAbs + (hi - lo) / 2) / (hi - lo) : Nat)
    calibrated r lo hi engLow engHigh - engLow = if 0 ≤ num then q else -q := by
  intro num q
  have unfolded : calibrated r lo hi engLow engHigh = if 0 ≤ num then engLow + q else engLow - q := rfl
  rw [unfolded]
  split <;> omega

/-- Settles O20. -/
theorem calibrationRoundsToNearest : Obligations.CalibrationRoundsToNearest := by
  intro r lo hi engLow engHigh hlt _ _ num den q
  obtain ⟨low, high⟩ := half_added_bounds num.natAbs (hi - lo) (by omega)
  have hden : den = ((hi - lo : Nat) : Int) := by omega
  have habs : |num| = (num.natAbs : Int) := Int.abs_eq_natAbs num
  have hq := calibrated_sub r lo hi engLow engHigh
  refine nearest_of_bounds (m := ((num.natAbs + (hi - lo) / 2) / (hi - lo) * (hi - lo) : Nat)) (by omega)
    (Int.natCast_nonneg _) (by rw [habs, hden]; exact_mod_cast low) (by rw [habs, hden]; exact_mod_cast high) ?_
  show (calibrated r lo hi engLow engHigh - engLow) * den = _
  rw [hq, hden, Nat.cast_mul]
  exact (ite_mul ..).trans (by rw [Int.neg_mul])

end Sys2Proof.Machine

/-! # What every request step has in common (R20, R21, R149, R198) -/

namespace Sys2Proof.Machine

/-! ## The end of a step in which no producer has begun to wait -/

theorem SameWaits.admitted {s t : State} (h : SameWaits s t) : Machine.admitted s t = t :=
  admitted_same fun p w => (h.isWaiting p).symm.trans w

/-- An answer by itself makes no producer wait. -/
theorem SameWaits.answered {s t : State} (h : SameWaits s t) (f : Frame) (rest : List Frame) (code : Nat)
    (vs : List Word) : SameWaits s (answered f rest code vs t) := ⟨h.rod, h.ticket, h.lag, h.event, h.due⟩

theorem answered_getD (f : Frame) (rest : List Frame) (r : Reply) (t : State) :
    Answer (answered f rest r.code.num (r.results.getD (echo f)) t) f rest r.code.num (r.results.getD (echo f)) :=
  ⟨rfl, rfl⟩

section
variable {kind countFits : Nat → Bool} {whileEnding : Bool} {body : Frame → State → State × Option Reply}
  {s : State} {tag : BitVec 8} {f : Frame} {rest : List Frame}

/-- A request that is asked and fits is answered as its own rule decides; one taken while ENDING in every job state. -/
theorem takeRequest_by_body {t : State} {r : Reply} (asks : Asks s tag f rest) (hk : kind tag.toNat = true)
    (hc : countFits f.values.length = true) (job : s.bill.job ≠ .ending ∨ whileEnding = true)
    (hb : body f (taken rest s) = (taken rest t, some r)) :
    takeRequest kind countFits whileEnding body s = answered f rest r.code.num (r.results.getD (echo f)) t := by
  have free := asks.decoderFree
  obtain ⟨head, -, -, rfl⟩ := asks
  rw [takeRequest_carried head free hk hc job hb, placeResponse_taken]

/-- A request whose answer makes no producer wait: its step ends with the answer. -/
theorem admitted_takeRequest {t : State} {r : Reply} (asks : Asks s tag f rest) (hk : kind tag.toNat = true)
    (hc : countFits f.values.length = true) (job : s.bill.job ≠ .ending ∨ whileEnding = true)
    (hb : body f (taken rest s) = (taken rest t, some r)) (w : SameWaits s t) :
    admitted s (takeRequest kind countFits whileEnding body s) =
      answered f rest r.code.num (r.results.getD (echo f)) t := by
  rw [takeRequest_by_body asks hk hc job hb, (w.answered ..).admitted]

theorem takeRequest_badRequest (asks : Asks s tag f rest) (hk : kind tag.toNat = true)
    (hc : countFits f.values.length = false) :
    takeRequest kind countFits whileEnding body s = answered f rest 4 (echo f) s := by
  have free := asks.decoderFree
  obtain ⟨head, -, -, rfl⟩ := asks
  simp only [takeRequest, head, free, hk, hc, Bool.and_self, Bool.not_false, if_true]
  exact placeResponse_taken f rest (Reply.echo .badRequest) s

/-- Nothing is taken while the response slot holds a response or a completion response waits, or where the head is of
another kind (R20, R21). -/
theorem takeRequest_not_taken {n : Nat}
    (h : s.line.response ≠ none ∨ s.line.completion ≠ none ∨ ∀ g ∈ s.line.requests.head?, g.tag.toNat ≠ n) :
    takeRequest (· == n) countFits whileEnding body s = s := by
  unfold takeRequest
  split
  · rfl
  · next g rest head =>
    refine if_neg fun can => ?_
    obtain ⟨free, same⟩ := Bool.and_eq_true_iff.1 can
    simp only [decoderFree, Bool.and_eq_true, Option.isNone_iff_eq_none] at free
    rcases h with h | h | h
    · exact h free.1
    · exact h free.2
    · exact h g (by rw [head]; rfl) (beq_iff_eq.1 same)

end

/-! ## The table of request kinds -/

/-- A command is the step of a request kind: it takes the requests of the TAG, with the COUNTs that fit, and only MODE
and STATUS while the job is ENDING. -/
def Serves (i : Instr) (tag : Nat) (counts : List Nat) : Prop :=
  ∃ (countFits : Nat → Bool) (whileEnding : Bool) (body : Frame → State → State × Option Reply),
    (∀ n, countFits n = true ↔ n ∈ counts) ∧ (whileEnding = true → i = .mode ∨ i = .status) ∧
    ∀ s, exec i s = .next (takeRequest (· == tag) countFits whileEnding body s) ∨
      exec i s = .next (admitted s (takeRequest (· == tag) countFits whileEnding body s))

theorem serves_one {i : Instr} {tag n : Nat} {body : Frame → State → State × Option Reply}
    (h : ∀ s, exec i s = .next (takeRequest (· == tag) (· == n) false body s)) : Serves i tag [n] :=
  ⟨(· == n), false, body, by simp, nofun, fun s => .inl (h s)⟩

theorem serves_one_admitted {i : Instr} {tag n : Nat} {body : Frame → State → State × Option Reply}
    (h : ∀ s, exec i s = .next (admitted s (takeRequest (· == tag) (· == n) false body s))) : Serves i tag [n] :=
  ⟨(· == n), false, body, by simp, nofun, fun s => .inr (h s)⟩

theorem load_serves : Serves .load 2 [2, 3, 4, 5, 6, 7, 8, 9, 10, 11, 12, 13, 14] :=
  ⟨fun n => 2 ≤ n && n ≤ 14, false, loadBody, by simp; omega, nofun, fun _ => .inl rfl⟩

theorem stringLoad_serves : Serves .stringLoad 8 [5, 13] :=
  ⟨fun n => n == 5 || n == 13, false, stringLoadBody, by simp, nofun, fun _ => .inl rfl⟩

theorem mode_serves : Serves .mode 1 [1] :=
  ⟨(· == 1), true, modeBody, by simp, fun _ => .inl rfl, fun _ => .inr rfl⟩

theorem status_serves : Serves .status 19 [0] :=
  ⟨(· == 0), true, statusBody, by simp, fun _ => .inr rfl, fun _ => .inr rfl⟩

theorem serves_of_mem_requestTable {x : Instr × Nat × List Nat} (h : x ∈ requestTable) : Serves x.1 x.2.1 x.2.2 := by
  have all : ∀ x ∈ requestTable, Serves x.1 x.2.1 x.2.2 := by
    simp only [requestTable, List.forall_mem_cons, List.not_mem_nil, false_imp_iff, implies_true, and_true]
    exact ⟨mode_serves, load_serves, serves_one_admitted fun _ => rfl, serves_one fun _ => rfl,
      serves_one fun _ => rfl, serves_one fun _ => rfl, serves_one fun _ => rfl, stringLoad_serves,
      serves_one_admitted fun _ => rfl, serves_one_admitted fun _ => rfl, serves_one_admitted fun _ => rfl,
      serves_one_admitted fun _ => rfl, serves_one_admitted fun _ => rfl, serves_one_admitted fun _ => rfl,
      serves_one_admitted fun _ => rfl, serves_one_admitted fun _ => rfl, serves_one_admitted fun _ => rfl,
      serves_one_admitted fun _ => rfl, status_serves⟩
  exact all x h

theorem tag_of_mem_requestTable {x : Instr × Nat × List Nat} (h : x ∈ requestTable) : x.2.1 < 256 := by
  have all : ∀ x ∈ requestTable, x.2.1 < 256 := by
    simp [requestTable]
  exact all x h

section
variable {i : Instr} {tag : Nat} {counts : List Nat} {s : State} {f : Frame} {rest : List Frame}

theorem Serves.badRequest (h : Serves i tag counts) (small : tag < 256) (asks : Asks s (BitVec.ofNat 8 tag) f rest)
    (count : f.values.length ∉ counts) : exec i s = .next (answered f rest 4 (echo f) s) := by
  obtain ⟨fits, we, body, iff, -, run⟩ := h
  have same : takeRequest (· == tag) fits we body s = answered f rest 4 (echo f) s :=
    takeRequest_badRequest asks (by simp [Nat.mod_eq_of_lt small]) (by rw [← Bool.not_eq_true, iff]; exact count)
  rcases run s with e | e <;> rw [e, same]
  rw [((SameWaits.refl s).answered ..).admitted]

theorem Serves.busy (h : Serves i tag counts) (small : tag < 256) (asks : Asks s (BitVec.ofNat 8 tag) f rest)
    (count : f.values.length ∈ counts) (job : s.bill.job = .ending) (mode : i ≠ .mode) (status : i ≠ .status) :
    exec i s = .next (answered f rest 3 (echo f) s) := by
  obtain ⟨fits, we, body, iff, ending, run⟩ := h
  have notTaken : we = false := by
    rw [← Bool.not_eq_true]
    exact fun w => (ending w).elim mode status
  subst notTaken
  have same : takeRequest (· == tag) fits false body s = answered f rest 3 (echo f) s :=
    takeRequest_busy asks (by simp [Nat.mod_eq_of_lt small]) ((iff _).2 count) job
  rcases run s with e | e <;> rw [e, same]
  rw [((SameWaits.refl s).answered ..).admitted]

theorem Serves.notTaken (h : Serves i tag counts)
    (none : s.line.response ≠ none ∨ s.line.completion ≠ none ∨ ∀ g ∈ s.line.requests.head?, g.tag.toNat ≠ tag) :
    exec i s = .next s := by
  obtain ⟨fits, we, body, -, -, run⟩ := h
  rcases run s with e | e <;> rw [e, takeRequest_not_taken none]
  rw [(SameWaits.refl s).admitted]

end

/-- Settles O48: each command of the table is a step of `takeRequest`. -/
theorem decoderAnswersAlike : Obligations.DecoderAnswersAlike := by
  intro s f rest
  refine ⟨fun i tag counts known asks => ?_, fun tag unknown asks => ?_, fun i tag counts known none => ?_⟩
  · have serves := serves_of_mem_requestTable known
    have small := tag_of_mem_requestTable known
    exact ⟨serves.badRequest small asks, serves.busy small asks⟩
  · refine congrArg Host.Outcome.next (takeRequest_badRequest asks ?_ rfl)
    simp [unknownKind, unknown]
  · exact (serves_of_mem_requestTable known).notTaken none

end Sys2Proof.Machine

/-! # READ_TABLE and STRING_LOAD (R72, R197) -/

namespace Sys2Proof.Machine

/-! ## READ_TABLE (R197) -/

section
variable {f : Frame} {s : State} {t : TableNo}

theorem readTableBody_badTable (large : 8 < f.val 0) : readTableBody f s = (s, some (Reply.echo .badTable)) := by
  simp [readTableBody, tableNo_eq_none large]

theorem readTableBody_badPage (table : f.val 0 = t.val) (large : s.tables[t].pending.length ≤ f.val 1) :
    readTableBody f s = (s, some (Reply.echo .badPage)) := by
  simp only [readTableBody, table, tableNo_val]
  exact if_pos large

theorem readTableBody_badValue (table : f.val 0 = t.val) (page : f.val 1 < s.tables[t].pending.length)
    (copy : 1 < f.val 2) : readTableBody f s = (s, some (Reply.echo .badValue)) := by
  simp only [readTableBody, table, tableNo_val]
  exact (if_neg (Nat.not_le.2 page)).trans (if_pos copy)

theorem readTableBody_read (table : f.val 0 = t.val) (page : f.val 1 < s.tables[t].pending.length)
    (copy : f.val 2 ≤ 1) : readTableBody f s = (s, some (readReply t (f.val 1) (f.val 2) s)) := by
  simp only [readTableBody, table, tableNo_val]
  exact (if_neg (Nat.not_le.2 page)).trans (if_neg (Nat.not_lt.2 copy))

theorem pageWords_of_getElem? {pages : List Page} {p : Nat} {page : Page} (h : pages[p]? = some page) :
    pageWords pages p = page.toList := by
  simp [pageWords, h]

/-- The head of an answer to READ_TABLE: table and page, copy and mask bit (R197). -/
def readHead (t : TableNo) (page copy : Nat) (s : State) : List Word :=
  [wBytes t page, wBytes copy (bit (s.tables[t].mask.getD page false))]

theorem readReply_pending {p : Nat} {page : Page} (h : s.tables[t].pending[p]? = some page) :
    readReply t p 1 s = Reply.values .ok (readHead t p 1 s ++ page.toList) := by
  rw [← pageWords_of_getElem? h]
  rfl

theorem readReply_active {p : Nat} {pages : List Page} {page : Page} (h : s.tables[t].active = some pages)
    (k : pages[p]? = some page) : readReply t p 0 s = Reply.values .ok (readHead t p 0 s ++ page.toList) := by
  rw [← pageWords_of_getElem? k, readReply]
  simp only [h]
  exact if_neg (by decide)

theorem readReply_invalid {p : Nat} (h : s.tables[t].active = none) :
    readReply t p 0 s = Reply.values .notReady (readHead t p 0 s ++ List.replicate 12 0) := by
  rw [readReply]
  simp only [h]
  exact if_neg (by decide)

/-- A READ_TABLE of three values that is carried out is answered as its rule decides, and changes nothing else. -/
theorem exec_readTable_answered {rest : List Frame} {r : Reply} (asks : Asks s 4 f rest)
    (count : f.values.length = 3) (job : s.bill.job ≠ .ending)
    (body : readTableBody f (taken rest s) = (taken rest s, some r)) :
    exec .readTable s = .next (answered f rest r.code.num (r.results.getD (echo f)) s) :=
  congrArg Host.Outcome.next (takeRequest_by_body asks rfl (by simp [count]) (.inl job) body)

theorem exec_readTable_read {rest : List Frame} {r : Reply} (asks : Asks s 4 f rest) (count : f.values.length = 3)
    (job : s.bill.job ≠ .ending) (table : f.val 0 = t.val) (page : f.val 1 < s.tables[t].pending.length)
    (copy : f.val 2 ≤ 1) (reply : readReply t (f.val 1) (f.val 2) (taken rest s) = r) :
    exec .readTable s = .next (answered f rest r.code.num (r.results.getD (echo f)) s) :=
  exec_readTable_answered asks count job (reply ▸ readTableBody_read table page copy)

end

/-- Settles O30: the checks of `readTableBody` decide in their order, then `readReply` by the copy asked for. -/
theorem readTableGivesPage : Obligations.ReadTableGivesPage := by
  intro s f rest asks count
  refine ⟨fun job => ?ending, fun job => ⟨fun large => ?badTable, fun t table =>
    ⟨fun large => ?badPage, fun inside => ⟨fun copy => ?badValue, fun page copy found => ?pending,
      fun pages page copy valid found => ?active, fun copy invalid => ?invalid⟩⟩⟩⟩
  case ending => exact congrArg Host.Outcome.next (takeRequest_busy asks rfl (by simp [count]) job)
  case badTable => exact exec_readTable_answered asks count job (readTableBody_badTable large)
  case badPage => exact exec_readTable_answered asks count job (readTableBody_badPage table large)
  case badValue => exact exec_readTable_answered asks count job (readTableBody_badValue table inside copy)
  case pending =>
    have reply : readReply t (f.val 1) (f.val 2) (taken rest s) = .values .ok (readHead t (f.val 1) 1 s ++ page.toList) := by
      rw [show f.val 2 = 1 from copy]
      exact readReply_pending found
    rw [copy]
    exact exec_readTable_read asks count job table inside copy.le reply
  case active =>
    have reply : readReply t (f.val 1) (f.val 2) (taken rest s) = .values .ok (readHead t (f.val 1) 0 s ++ page.toList) := by
      rw [show f.val 2 = 0 from copy]
      exact readReply_active valid found
    rw [copy]
    exact exec_readTable_read asks count job table inside (copy.trans_le (Nat.zero_le 1)) reply
  case invalid =>
    have reply : readReply t (f.val 1) (f.val 2) (taken rest s) =
        .values .notReady (readHead t (f.val 1) 0 s ++ List.replicate 12 0) := by
      rw [show f.val 2 = 0 from copy]
      exact readReply_invalid invalid
    rw [copy]
    exact exec_readTable_read asks count job table inside (copy.trans_le (Nat.zero_le 1)) reply

/-! ## STRING_LOAD (R72) -/

/-- A header of a string load (R72). -/
def loadHeaderOf (f : Frame) : LoadHeader :=
  { count := f.val 1, top := if f.val 2 = 1 then some (f.valSigned32 3) else none }

/-- The load buffer after a tag page (R72). -/
def loadPagesWith (f : Frame) (pages : Vector (Option (List Nat)) 21) : Vector (Option (List Nat)) 21 :=
  pages.setIfInBounds (f.val 0 - 1) (some ((f.values.drop 1).map (·.toNat)))

section
variable {f : Frame} {s : State}

theorem stringLoadBody_badPage (large : 21 < f.val 0) : stringLoadBody f s = (s, some (Reply.echo .badPage)) :=
  if_pos large

theorem stringLoadBody_badRequest (page : f.val 0 ≤ 21) (count : f.values.length ≠ if f.val 0 = 0 then 5 else 13) :
    stringLoadBody f s = (s, some (Reply.echo .badRequest)) :=
  (if_neg (Nat.not_lt.2 page)).trans (if_pos count)

theorem stringLoadBody_badValue (page : f.val 0 = 0) (count : f.values.length = 5)
    (value : 250 < f.val 1 ∨ 1 < f.val 2) : stringLoadBody f s = (s, some (Reply.echo .badValue)) := by
  rw [stringLoadBody, if_neg (by omega), if_neg (by simp [page, count]), if_pos page, if_pos value]

theorem stringLoadBody_header (rest : List Frame) (page : f.val 0 = 0) (count : f.values.length = 5)
    (rods : f.val 1 ≤ 250) (flag : f.val 2 ≤ 1) :
    stringLoadBody f (taken rest s) =
      (taken rest (s.setRod { s.rod with loadHeader := some (loadHeaderOf f) }), some (Reply.echo .ok)) := by
  rw [stringLoadBody, if_neg (by omega), if_neg (by simp [page, count]), if_pos page, if_neg (by omega)]
  rfl

theorem stringLoadBody_page (rest : List Frame) (page : 1 ≤ f.val 0) (high : f.val 0 ≤ 21)
    (count : f.values.length = 13) :
    stringLoadBody f (taken rest s) =
      (taken rest (s.setRod { s.rod with loadPages := loadPagesWith f s.rod.loadPages }), some (Reply.echo .ok)) := by
  have tags : f.val 0 ≠ 0 := by omega
  rw [stringLoadBody, if_neg (by omega), if_neg (by simp [tags, count]), if_neg tags]
  rfl

/-- A tag page is written in its own place and nowhere else (R72). -/
theorem loadPagesWith_getElem (pages : Vector (Option (List Nat)) 21) (page : 1 ≤ f.val 0) (p : Fin 21) :
    (loadPagesWith f pages)[p] =
      if p.val + 1 = f.val 0 then some ((f.values.drop 1).map (·.toNat)) else pages[p] := by
  simp only [loadPagesWith, Fin.getElem_fin, Vector.getElem_setIfInBounds]
  exact if_congr (by omega) rfl rfl

/-- A STRING_LOAD of five or thirteen values that is carried out, and that its rule answers with its own values. -/
theorem exec_stringLoad_answered {t : State} {rest : List Frame} {c : Code} (asks : Asks s 8 f rest)
    (count : f.values.length = 5 ∨ f.values.length = 13) (job : s.bill.job ≠ .ending)
    (body : stringLoadBody f (taken rest s) = (taken rest t, some (Reply.echo c))) :
    exec .stringLoad s = .next (answered f rest c.num (echo f) t) :=
  congrArg Host.Outcome.next (takeRequest_by_body asks rfl (by simpa using count) (.inl job) body)

end

/-- Settles O34: the checks of `stringLoadBody` decide in their order; the flag of value 2 is 0 or 1. -/
theorem stringLoadWritesBuffer : Obligations.StringLoadWritesBuffer := by
  intro s f rest asks count job
  have run {t : State} {c : Code} (body : stringLoadBody f (taken rest s) = (taken rest t, some (Reply.echo c))) :=
    exec_stringLoad_answered asks count job body
  refine ⟨fun large => run (stringLoadBody_badPage large), fun page misfit => run (stringLoadBody_badRequest page misfit),
    fun page five bad => run (stringLoadBody_badValue page five bad),
    fun page five rods flag => run (stringLoadBody_header rest page five rods flag), fun page high thirteen => ?tags⟩
  case tags =>
    exact ⟨_, run (stringLoadBody_page rest page high thirteen), rfl, loadPagesWith_getElem _ page⟩

end Sys2Proof.Machine

/-! # Requests that change one unit: BASELINE, ADDITION and DOWNTIME (R61, R108, R109) -/

namespace Sys2Proof.Machine

/-! ## What the end of a step leaves of the units -/

section
variable {s t u : State}

/-- Of two states the channels, the tables and every unit but the line interface and the event unit are the same. -/
structure SameUnits (s t : State) : Prop where
  depth : t.depth = s.depth
  rod : t.rod = s.rod
  circ : t.circ = s.circ
  lag : t.lag = s.lag
  interval : t.interval = s.interval
  bill : t.bill = s.bill
  gov : t.gov = s.gov
  channels : t.channels = s.channels
  tables : t.tables = s.tables

theorem SameUnits.trans (h : SameUnits s t) (k : SameUnits t u) : SameUnits s u :=
  ⟨k.depth.trans h.depth, k.rod.trans h.rod, k.circ.trans h.circ, k.lag.trans h.lag, k.interval.trans h.interval,
    k.bill.trans h.bill, k.gov.trans h.gov, k.channels.trans h.channels, k.tables.trans h.tables⟩

theorem SameOffers.ofUnits (rod : t.rod = s.rod) (bill : t.bill = s.bill) (lag : t.lag = s.lag) : SameOffers s t :=
  ⟨congrArg RodState.out rod, congrArg BillState.outBuffer bill, congrArg LagState.hold lag,
    congrArg LagState.queue lag⟩

theorem SameUnits.offers (h : SameUnits s t) : SameOffers s t :=
  .ofUnits h.rod h.bill h.lag

theorem EventOnly.sameUnits (h : EventOnly s t) : SameUnits s t :=
  ⟨h.depth, h.rod, h.circ, h.lag, h.interval, h.bill, h.gov, h.channels, h.tables⟩

theorem EventOnly.requests (h : EventOnly s t) : t.line.requests = s.line.requests := by rw [h.line]

theorem EventOnly.records (h : EventOnly s t) : t.line.records = s.line.records := by rw [h.line]

theorem SameButRecords.sameUnits (h : SameButRecords s t) : SameUnits s t := by
  constructor <;> rw [h.1]

theorem SameButRecords.answer (h : SameButRecords s t) {f : Frame} {rest : List Frame} {code : Nat} {vs : List Word}
    (a : Answer s f rest code vs) : Answer t f rest code vs := by
  obtain ⟨requests, response⟩ := a
  constructor <;> rw [h.1] <;> assumption

end

theorem cond_admitted (s t : State) (q : Source) : cond (admitted s t) q = cond t q := (admitted_admits s t).conds q

/-! ## A request that is carried out and answered -/

section
variable {kind countFits : Nat → Bool} {whileEnding : Bool} {body : Frame → State → State × Option Reply}
  {s v : State} {tag : BitVec 8} {f : Frame} {rest : List Frame} {r : Reply}

/-- The state in which a request has been carried out and its response placed. -/
def replied (f : Frame) (r : Reply) (v : State) : State := placeResponse (responseFrame f.tag f.values r) v

theorem takeRequest_replied (asks : Asks s tag f rest) (hk : kind tag.toNat = true)
    (hc : countFits f.values.length = true) (job : s.bill.job ≠ .ending ∨ whileEnding = true)
    (hb : body f (taken rest s) = (v, some r)) : takeRequest kind countFits whileEnding body s = replied f r v := by
  have free := asks.decoderFree
  obtain ⟨head, -, -, rfl⟩ := asks
  exact takeRequest_carried head free hk hc job hb

theorem replied_answer (requests : v.line.requests = rest) :
    Answer (replied f r v) f rest r.code.num (r.results.getD (echo f)) := ⟨requests, rfl⟩

theorem replied_sameUnits : SameUnits v (replied f r v) := ⟨rfl, rfl, rfl, rfl, rfl, rfl, rfl, rfl, rfl⟩

theorem cond_admitted_replied {q : Source} : cond (admitted s (replied f r v)) q = cond v q :=
  cond_admitted s (replied f r v) q

/-- Where a request offers no ROD, TICKET or STRATA record, the end of its step changes the event unit's share and lets
EVENT and STATUS records enter (R23). -/
theorem admitted_replied (settled : Settled s) (o : SameOffers s v) (e : v.line.records = s.line.records) :
    SameButRecords (replied f r v) (admitted s (replied f r v)) :=
  admitted_sameRecords settled (o.trans replied_sameUnits.offers) e

/-- A request carried out in a state that differs from a given one in the event unit's share: at the end of its step the
answer waits and the units are those of the given state. -/
theorem admitted_replied_units {g : State} (settled : Settled s) (unit : EventOnly g v) (o : SameOffers s g)
    (records : g.line.records = s.line.records) (requests : g.line.requests = rest) :
    Answer (admitted s (replied f r v)) f rest r.code.num (r.results.getD (echo f)) ∧
      SameUnits g (admitted s (replied f r v)) :=
  have same := admitted_replied (f := f) (r := r) settled (o.trans unit.sameUnits.offers) (unit.records.trans records)
  ⟨same.answer (replied_answer (unit.requests.trans requests)),
    (unit.sameUnits.trans replied_sameUnits).trans same.sameUnits⟩

end

/-! ## States that differ in the event unit's share and one unit more -/

theorem EventOnly.setInterval {s t : State} (h : EventOnly s t) (i : IntervalState) :
    EventOnly (s.setInterval i) (t.setInterval i) :=
  { h with interval := rfl }

/-- Besides the event unit's share only the interval unit differs. -/
def BesideInterval (s t : State) : Prop := EventOnly (s.setInterval t.interval) t

theorem EventOnly.besideInterval {s t : State} (h : EventOnly s t) : BesideInterval s t := by
  have e := h.setInterval t.interval
  exact { e with interval := rfl }

theorem BesideInterval.trans {s t u : State} (h : BesideInterval s t) (k : BesideInterval t u) : BesideInterval s u :=
  EventOnly.trans (EventOnly.setInterval h u.interval) k

theorem markLoss_besideInterval (s : State) : BesideInterval s (markLoss s) := EventOnly.refl _

theorem setPitGain_eventOnly (b : Bool) (s : State) : EventOnly s (setPitGain b s) := setCondition_eventOnly _ _ _ s

theorem setPitLoss_besideInterval (b : Bool) (s : State) : BesideInterval s (setPitLoss b s) := by
  have reported := (setCondition_eventOnly srcPitLoss b (fitSignedBits32 (litres s.circ.deviation)) s).besideInterval
  unfold setPitLoss
  dsimp only
  split
  · exact reported.trans (markLoss_besideInterval _)
  · exact reported

/-- The watch on the pit balance reports, and marks the open interval's loss (R106, R135). -/
theorem pitWatch_besideInterval (s : State) : BesideInterval s (pitWatch s) := by
  unfold pitWatch
  split
  · exact (EventOnly.refl s).besideInterval
  · exact (setPitGain_eventOnly _ s).besideInterval.trans (setPitLoss_besideInterval _ _)
  · exact (setPitGain_eventOnly _ s).besideInterval.trans (setPitLoss_besideInterval _ _)

theorem markLoss_cond (s : State) (q : Source) : cond (markLoss s) q = cond s q := rfl

theorem setPitLoss_cond_apart (b : Bool) (s : State) {q : Source} (h : q ≠ srcPitLoss) :
    cond (setPitLoss b s) q = cond s q := by
  unfold setPitLoss
  dsimp only
  rw [apply_ite (cond · q), markLoss_cond, ite_self, setCondition_cond, if_neg h]

theorem setPitGain_cond_apart (b : Bool) (s : State) {q : Source} (h : q ≠ srcPitGain) :
    cond (setPitGain b s) q = cond s q := by
  rw [setPitGain, setCondition_cond, if_neg h]

/-- The watch on the pit balance reports PIT_GAIN and PIT_LOSS alone. -/
theorem pitWatch_cond_apart (s : State) {q : Source} (gain : q ≠ srcPitGain) (loss : q ≠ srcPitLoss) :
    cond (pitWatch s) q = cond s q := by
  unfold pitWatch
  split
  · rfl
  · rw [setPitLoss_cond_apart _ _ loss, setPitGain_cond_apart _ _ gain]
  · rw [setPitLoss_cond_apart _ _ loss, setPitGain_cond_apart _ _ gain]

/-! ## BASELINE (R108) -/

/-- The circulation unit with a baseline on a pit volume in L (R102). -/
def baselined (v : Nat) (x : CircState) : CircState :=
  { x with watching := true, reference := v * 1000000, adjustment := 0, deviation := 0 }

theorem pitBaseline_besideInterval (v : Nat) (s : State) :
    BesideInterval (s.setCirc (baselined v s.circ)) (pitBaseline v s) := by
  unfold pitBaseline
  exact (((setPitGain_eventOnly _ _).besideInterval.trans (setPitLoss_besideInterval _ _)).trans
    (setCondition_eventOnly _ _ _ _).besideInterval).trans (pitWatch_besideInterval _)

theorem pitBaseline_cond_suspended (v : Nat) (s : State) : cond (pitBaseline v s) srcBalanceSuspended = false := by
  unfold pitBaseline
  dsimp only
  rw [pitWatch_cond_apart _ (by decide) (by decide), setCondition_cond, if_pos rfl]

section
variable {s : State} {f : Frame}

theorem baselineBody_notReady (h : s.line.mode = .bypass ∨ held s 4 = none) :
    baselineBody f s = (s, some (Reply.echo .notReady)) := by
  unfold baselineBody
  split
  · rfl
  · rfl
  · next v volume mode =>
    rcases h with h | h
    · exact absurd h mode
    · rw [h] at volume; cases volume

theorem baselineBody_taken {v : Nat} (mode : s.line.mode ≠ .bypass) (volume : held s 4 = some v) :
    baselineBody f s = (pitBaseline v s, some (Reply.echo .ok)) := by
  unfold baselineBody
  rw [volume]
  cases m : s.line.mode with
  | bypass => exact absurd m mode
  | observe => rfl
  | govern => rfl

end

/-- Settles O43: in the accepted case the circulation unit is that of `pitBaseline`, which the watch leaves. -/
theorem baselineIsTaken : Obligations.BaselineIsTaken := by
  intro s f rest settled asks none job
  have echoed : echo f = [] := by simp [echo, none]
  constructor
  · intro h
    rw [← echoed]
    exact congrArg Host.Outcome.next
      (admitted_takeRequest asks rfl (by simp [none]) (.inl job) (baselineBody_notReady (s := taken rest s) h)
        (SameWaits.refl s))
  · intro v mode volume
    have run := takeRequest_replied (kind := (· == 14)) (countFits := (· == 0)) (whileEnding := false) asks rfl
      (by simp [none]) (.inl job) (baselineBody_taken (f := f) (s := taken rest s) mode volume)
    obtain ⟨answer, units⟩ := admitted_replied_units (f := f) (r := Reply.echo .ok) (rest := rest) settled
      (pitBaseline_besideInterval v (taken rest s)) ⟨rfl, rfl, rfl, rfl⟩ rfl rfl
    refine ⟨_, congrArg (Host.Outcome.next ∘ admitted s) run, echoed ▸ answer, units.circ, ?_, units.depth, units.rod,
      units.lag, units.bill, units.gov, units.channels, units.tables⟩
    exact cond_admitted_replied.trans (pitBaseline_cond_suspended v _)

/-! ## ADDITION (R109) -/

theorem fitSigned64_of_fits {x : Int} (low : -9223372036854775808 ≤ x) (high : x ≤ 9223372036854775807) :
    fitSigned64 x = x := if_pos ⟨low, high⟩

theorem pitAdjustment_besideInterval {s : State} (x : Int) (watching : s.circ.watching = true) :
    BesideInterval (adjustPit x s) (pitAdjustment x s) := by
  rw [pitAdjustment, if_pos watching]
  exact pitWatch_besideInterval _

/-- While the adjustment and the deviation fit their 64 bits the balance takes them as they are (R101, R104). -/
theorem adjustPit_of_fits {s : State} {x : Int} {v : Nat} (watching : s.circ.watching = true)
    (volume : held s 4 = some v) (aLow : -9223372036854775808 ≤ s.circ.adjustment + x)
    (aHigh : s.circ.adjustment + x ≤ 9223372036854775807)
    (dLow : -9223372036854775808 ≤ (v : Int) * 1000000 - (s.circ.reference + (s.circ.adjustment + x)))
    (dHigh : (v : Int) * 1000000 - (s.circ.reference + (s.circ.adjustment + x)) ≤ 9223372036854775807) :
    adjustPit x s = s.setCirc { s.circ with
      adjustment := s.circ.adjustment + x
      deviation := (v : Int) * 1000000 - (s.circ.reference + (s.circ.adjustment + x)) } := by
  simp only [adjustPit, if_pos watching, deviationWith, volume, fitSigned64_of_fits aLow aHigh,
    fitSigned64_of_fits dLow dHigh]

section
variable {s : State} {f : Frame}

theorem additionBody_badValue (h : f.valSigned32 0 < -1000000 ∨ 1000000 < f.valSigned32 0) :
    additionBody f s = (s, some (Reply.echo .badValue)) := if_pos h

theorem additionBody_notReady (low : -1000000 ≤ f.valSigned32 0) (high : f.valSigned32 0 ≤ 1000000)
    (h : s.line.mode = .bypass ∨ s.circ.watching = false) : additionBody f s = (s, some (Reply.echo .notReady)) := by
  rw [additionBody, if_neg (by omega), if_pos h]

theorem additionBody_zero (zero : f.valSigned32 0 = 0) (mode : s.line.mode ≠ .bypass)
    (watching : s.circ.watching = true) : additionBody f s = (s, some (Reply.echo .ok)) := by
  rw [additionBody, if_neg (by omega), if_neg (by simp [mode, watching]), if_pos zero]

theorem additionBody_taken (zero : f.valSigned32 0 ≠ 0) (low : -1000000 ≤ f.valSigned32 0)
    (high : f.valSigned32 0 ≤ 1000000) (mode : s.line.mode ≠ .bypass) (watching : s.circ.watching = true) :
    additionBody f s = (pitAdjustment (f.valSigned32 0 * 1000000) s, some (Reply.echo .ok)) := by
  rw [additionBody, if_neg (by omega), if_neg (by simp [mode, watching]), if_neg zero]

end

/-- Settles O44: the rules of `additionBody` in their order; the accepted case is `adjustPit`, which the watch leaves. -/
theorem additionMovesBalance : Obligations.AdditionMovesBalance := by
  intro s f rest hi lo settled asks two job x
  have echoed : echo f = [hi, lo] := by simp [echo, two]
  have number : f.valSigned32 0 = x := by simp only [Frame.valSigned32, two]; rfl
  rw [← echoed]
  have answer {c : Code} (body : additionBody f (taken rest s) = (taken rest s, some (Reply.echo c))) :
      exec .addition s = .next (answered f rest c.num (echo f) s) :=
    congrArg Host.Outcome.next
      (admitted_takeRequest asks rfl (by simp [two]) (.inl job) body (SameWaits.refl s))
  rw [← number]
  refine ⟨fun h => answer (additionBody_badValue h), fun low high h => answer (additionBody_notReady low high h),
    fun zero mode watching => answer (additionBody_zero zero mode watching), ?accepted⟩
  intro v zero low high mode watching volume a d aLow aHigh dLow dHigh
  have run := takeRequest_replied (kind := (· == 15)) (countFits := (· == 2)) (whileEnding := false) asks rfl
    (by simp [two]) (.inl job) (additionBody_taken (f := f) (s := taken rest s) zero low high mode watching)
  have unit := pitAdjustment_besideInterval (s := taken rest s) (f.valSigned32 0 * 1000000) watching
  rw [adjustPit_of_fits (s := taken rest s) watching volume aLow aHigh dLow dHigh] at unit
  obtain ⟨answer, units⟩ := admitted_replied_units (f := f) (r := Reply.echo .ok) (rest := rest) settled unit
    ⟨rfl, rfl, rfl, rfl⟩ rfl rfl
  exact ⟨_, congrArg (Host.Outcome.next ∘ admitted s) run, answer, units.circ, units.depth, units.rod, units.lag,
    units.bill, units.gov, units.channels, units.tables⟩

/-! ## DOWNTIME (R61) -/

/-- A new activity brings DRILLING_NO_FLOW with it, and nothing else (R59, R60). -/
theorem setActivity_eventOnly (a : Activity) (s : State) :
    EventOnly (s.setDepth (setActivity a s).depth) (setActivity a s) := by
  rw [setActivity_depth]
  unfold setActivity
  split
  · next h => rw [← h]; exact EventOnly.refl _
  · exact setCondition_eventOnly _ _ _ _

/-- A candidate changes the depth unit, and the event unit by DRILLING_NO_FLOW (R59, R60). -/
theorem takeCandidate_eventOnly (a : Activity) (s : State) :
    EventOnly (s.setDepth (takeCandidate a s).depth) (takeCandidate a s) := by
  unfold takeCandidate
  split
  · exact setActivity_eventOnly a (setCandidate a none s)
  · split
    · split
      · exact setActivity_eventOnly a (setCandidate a none s)
      · exact EventOnly.refl _
    · exact EventOnly.refl _

theorem recomputeCandidate_eventOnly (s : State) :
    EventOnly (s.setDepth (recomputeCandidate s).depth) (recomputeCandidate s) :=
  takeCandidate_eventOnly (activityCandidate s) s

theorem activityCandidate_declared {s : State} {a : Activity} (mode : s.line.mode ≠ .bypass)
    (declared : s.depth.downtime.activity = some a) : activityCandidate s = a := by
  rw [activityCandidate, if_neg mode, declared]

/-- A candidate that does not wait for the dwell is the activity after the recomputation, and no dwell runs (R59). -/
theorem recomputeCandidate_depth_of_immediate {s : State} {a : Activity} (candidate : activityCandidate s = a)
    (h : a.immediate = true) :
    (recomputeCandidate s).depth.activity = a ∧ (recomputeCandidate s).depth.dwellStart = none := by
  rw [recomputeCandidate, candidate, takeCandidate_depth_of_immediate h]
  exact ⟨rfl, rfl⟩

/-- The state after a declaration, before the candidate is recomputed (R61). -/
def declared (d : Downtime) (s : State) : State := s.setDepth { s.depth with downtime := d }

/-- The declaration of a value up to 2 (R61). -/
def declarationOf (w : Word) : Downtime := if w = 0 then .none else if w = 1 then .standby else .repair

theorem downtimeAsked_eq_none {n : Nat} (large : 2 < n) : downtimeAsked n = none := by
  unfold downtimeAsked
  split <;> first | omega | rfl

theorem downtimeAsked_word {w : Word} (small : w.toNat ≤ 2) : downtimeAsked w.toNat = some (declarationOf w) := by
  have cases3 : w.toNat = 0 ∨ w.toNat = 1 ∨ w.toNat = 2 := by omega
  rcases cases3 with h | h | h
  · obtain rfl : w = 0 := BitVec.eq_of_toNat_eq h
    rfl
  · obtain rfl : w = 1 := BitVec.eq_of_toNat_eq h
    rfl
  · obtain rfl : w = 2 := BitVec.eq_of_toNat_eq h
    rfl

section
variable {f : Frame} {s : State} {w : Word}

theorem downtimeBody_badValue (one : f.values = [w]) (large : 2 < w.toNat) :
    downtimeBody f s = (s, some (Reply.echo .badValue)) := by
  simp [downtimeBody, val_zero_of_values one, downtimeAsked_eq_none large]

theorem downtimeBody_declared (one : f.values = [w]) (small : w.toNat ≤ 2) :
    downtimeBody f s = (recomputeCandidate (declared (declarationOf w) s), some (Reply.echo .ok)) := by
  simp only [downtimeBody, val_zero_of_values one, downtimeAsked_word small]
  rfl

end

/-- Settles O45: the candidate recomputed after the declaration is UNTRACKED in BYPASS, and STANDBY or REPAIR where
declared; none of these waits for the dwell. -/
theorem downtimeIsDeclared : Obligations.DowntimeIsDeclared := by
  intro s f rest w settled asks one job
  have echoed := echo_of_values one
  constructor
  · intro large
    rw [← echoed]
    exact congrArg Host.Outcome.next
      (admitted_takeRequest asks rfl (by simp [one]) (.inl job) (downtimeBody_badValue one large) (SameWaits.refl s))
  · intro small
    have run := takeRequest_replied (kind := (· == 16)) (countFits := (· == 1)) (whileEnding := false) asks rfl
      (by simp [one]) (.inl job) (downtimeBody_declared (s := taken rest s) one small)
    let before := declared (declarationOf w) (taken rest s)
    have calm : Calm before (recomputeCandidate before) := recomputeCandidate_calm before
    obtain ⟨answer, units⟩ := admitted_replied_units (f := f) (r := Reply.echo .ok) (rest := rest) settled
      (recomputeCandidate_eventOnly before) ⟨rfl, rfl, rfl, rfl⟩ rfl rfl
    have depth := units.depth
    have immediate (a : Activity) (candidate : activityCandidate before = a) (h : a.immediate = true) :
        (recomputeCandidate before).depth.activity = a ∧ (recomputeCandidate before).depth.dwellStart = none :=
      recomputeCandidate_depth_of_immediate candidate h
    refine ⟨_, congrArg (Host.Outcome.next ∘ admitted s) run, echoed ▸ answer,
      (congrArg DepthState.downtime depth).trans calm.downtime, fun mode is => ?_, fun mode is => ?_, fun mode => ?_,
      (congrArg DepthState.hole depth).trans calm.hole, (congrArg DepthState.jobClock depth).trans calm.jobClock,
      units.rod, units.circ, units.lag, units.interval, units.bill, units.gov, units.channels, units.tables⟩
    · subst is
      rw [depth]
      exact immediate .standby (activityCandidate_declared (s := before) mode rfl) rfl
    · subst is
      rw [depth]
      exact immediate .repair (activityCandidate_declared (s := before) mode rfl) rfl
    · rw [depth]
      exact (immediate .untracked (activityCandidate_bypass before mode) rfl).1

end Sys2Proof.Machine

/-! # MODE (R13 to R16) -/

namespace Sys2Proof.Machine

/-! ## Changes of the line mode -/

/-- Out of BYPASS, a change of the line mode is `setMode` and what the pit balance and the activity make of it. -/
theorem changeMode_calm {m : LineMode} (inLine : m ≠ .bypass) (s : State) : Calm (setMode m s) (changeMode m s) := by
  have other : Calm (setMode m s) (if s.line.mode = .bypass then leaveBypass m s else changeInLine m s) :=
    Calm.ite ((pitLeaveBypass_calm _).trans (recomputeCandidate_calm _)) (recomputeCandidate_calm _)
  cases m with
  | bypass => exact absurd rfl inLine
  | observe => exact other
  | govern => exact other

theorem changeMode_keepsDue {m : LineMode} (inLine : m ≠ .bypass) (s : State) :
    KeepsDue (setMode m s) (changeMode m s) := by
  have leave : Keeps (fun _ => False) (setMode m s) (leaveBypass m s) :=
    (pitLeaveBypass_keeps _).trans (recomputeCandidate_keeps _)
  have change : Keeps (fun _ => False) (setMode m s) (changeInLine m s) := recomputeCandidate_keeps _
  have other := (Keeps.ite (c := s.line.mode = .bypass) leave change).waits id
  cases m with
  | bypass => exact absurd rfl inLine
  | observe => exact other.due
  | govern => exact other.due

theorem setMode_statusDue (m : LineMode) (s : State) :
    (setMode m s).line.statusDue = some (s.line.statusDue.getD .mode) := rfl

theorem setMode_bypassOut {m : LineMode} (inLine : m ≠ .bypass) (s : State) :
    (setMode m s).line.bypassOut = inReset s := by
  show ((m == .bypass) || inReset s) = inReset s
  rw [beq_false_of_ne inLine, Bool.false_or]

/-- STATUS that is due with a cause as a request is answered is due, or has entered, at the end of the step (R24). -/
theorem statusMade_admitted_replied {s v : State} {f : Frame} {r : Reply} {cause : StatusCause}
    (records : v.line.records = s.line.records) (due : v.line.statusDue = some (s.line.statusDue.getD cause)) :
    StatusMade cause s (admitted s (replied f r v)) :=
  StatusMade.admitted (t := replied f r v) (records ▸ List.prefix_refl _) (.inl due) s

/-! ## The rules of MODE in their order (R14) -/

section
variable {f : Frame} {s : State} {m : LineMode}

theorem modeAsked_eq_none {n : Nat} (large : 2 < n) : modeAsked n = none := by
  unfold modeAsked
  split <;> first | omega | rfl

theorem modeBody_badValue (asked : modeAsked (f.val 0) = none) : modeBody f s = (s, some (Reply.echo .badValue)) := by
  rw [modeBody, asked]

theorem modeBody_busy (asked : modeAsked (f.val 0) = some m) (job : s.bill.job = .ending) (inLine : m ≠ .bypass) :
    modeBody f s = (s, some (Reply.echo .busy)) := by
  rw [modeBody, asked]
  exact if_pos ⟨job, inLine⟩

theorem modeBody_inForce (asked : modeAsked (f.val 0) = some m) (free : ¬(s.bill.job = .ending ∧ m ≠ .bypass))
    (same : m = s.line.mode) : modeBody f s = (s, some (Reply.echo .ok)) := by
  rw [modeBody, asked]
  exact (if_neg free).trans (if_pos same)

theorem modeBody_notReady {i : Nat} (asked : modeAsked (f.val 0) = some m)
    (free : ¬(s.bill.job = .ending ∧ m ≠ .bypass)) (other : m ≠ s.line.mode) (first : unmet m s = some i) :
    modeBody f s = (s, some (Reply.values .notReady [w16 i])) := by
  rw [modeBody, asked]
  refine ((if_neg free).trans (if_neg other)).trans ?_
  rw [first]

theorem modeBody_changed (asked : modeAsked (f.val 0) = some m) (free : ¬(s.bill.job = .ending ∧ m ≠ .bypass))
    (other : m ≠ s.line.mode) (met : unmet m s = none) :
    modeBody f s = (changeMode m s, some (Reply.echo .ok)) := by
  rw [modeBody, asked]
  refine ((if_neg free).trans (if_neg other)).trans ?_
  rw [met]

end

/-- A MODE request of one value that is answered without a change. -/
theorem exec_mode_answered {s : State} {f : Frame} {rest : List Frame} {r : Reply} {w : Word} (asks : Asks s 1 f rest)
    (one : f.values = [w]) (body : modeBody f (taken rest s) = (taken rest s, some r)) :
    exec .mode s = .next (answered f rest r.code.num (r.results.getD [w]) s) := by
  rw [← echo_of_values one]
  exact congrArg Host.Outcome.next
    (admitted_takeRequest asks rfl (by simp [one]) (.inr rfl) body (SameWaits.refl s))

theorem exec_mode_changed {s : State} {f : Frame} {rest : List Frame} {w : Word} {m : LineMode}
    (asks : Asks s 1 f rest) (one : f.values = [w])
    (body : modeBody f (taken rest s) = (changeMode m (taken rest s), some (Reply.echo .ok))) :
    exec .mode s = .next (admitted s (replied f (Reply.echo .ok) (changeMode m (taken rest s)))) :=
  congrArg (Host.Outcome.next ∘ admitted s)
    (takeRequest_replied (kind := (· == 1)) (countFits := (· == 1)) (whileEnding := true) asks rfl (by simp [one])
      (.inr rfl) body)

/-- The state at the end of a MODE request that has entered OBSERVE or GOVERN (R13, R14, R24). -/
theorem modeEntered_of_calm {s v : State} {f : Frame} {rest : List Frame} {w : Word} {m : LineMode}
    (settled : Settled s) (one : f.values = [w]) (inLine : m ≠ .bypass) (calm : Calm (setMode m (taken rest s)) v)
    (due : v.line.statusDue = some (s.line.statusDue.getD .mode)) :
    let t := admitted s (replied f (Reply.echo .ok) v)
    Answer t f rest 0 [w] ∧ t.line.mode = m ∧ StatusMade .mode s t ∧ t.line.bypassOut = inReset s ∧
      t.line.forward = s.line.forward ∧ t.line.downstream = s.line.downstream ∧ t.channels = s.channels ∧
      t.rod = s.rod ∧ t.bill = s.bill ∧ t.lag = s.lag ∧ t.gov = s.gov ∧ t.tables = s.tables := by
  intro t
  have line := calm.line
  have records : v.line.records = s.line.records := by rw [line]; rfl
  have requests : v.line.requests = rest := by rw [line]; rfl
  have same : SameButRecords (replied f (Reply.echo .ok) v) t :=
    admitted_replied settled
      (.ofUnits calm.rod calm.bill calm.lag) records
  have units := replied_sameUnits.trans same.sameUnits
  have endLine : ∀ {α : Type} (p : LineState → α) (_ : p t.line = p v.line) {x : α},
      p (setMode m (taken rest s)).line = x → p v.line = p (setMode m (taken rest s)).line → p t.line = x :=
    fun p a x b c => a.trans (c.trans b)
  refine ⟨echo_of_values one ▸ same.answer (replied_answer requests), ?_, statusMade_admitted_replied records due, ?_,
    ?_, ?_, units.channels.trans calm.channels, units.rod.trans calm.rod, units.bill.trans calm.bill,
    units.lag.trans calm.lag, units.gov.trans calm.gov, units.tables.trans calm.tables⟩
  · exact endLine LineState.mode (by rw [same.1]; rfl) rfl (by rw [line])
  · exact endLine LineState.bypassOut (by rw [same.1]; rfl) (setMode_bypassOut inLine _) (by rw [line])
  · exact endLine LineState.forward (by rw [same.1]; rfl) rfl (by rw [line])
  · exact endLine LineState.downstream (by rw [same.1]; rfl) rfl (by rw [line])

theorem unmet_observe_channel {s : State} (h : isActive s tChannel = false) : unmet .observe s = some 1 := by
  simp [unmet, requirements, h, List.idxOf?, List.findIdx?_cons]

theorem unmet_observe_settings {s : State} (h : isActive s tChannel = true) (k : isActive s tSettings = false) :
    unmet .observe s = some 2 := by
  simp [unmet, requirements, h, k, List.idxOf?, List.findIdx?_cons]

theorem unmet_eq_none {s : State} {m : LineMode} (h : ∀ b ∈ requirements m s, b = true) : unmet m s = none := by
  rw [unmet, Option.map_eq_none_iff, List.idxOf?_eq_none_iff]
  exact fun missing => nomatch h false missing

theorem modeEntered {s : State} {f : Frame} {rest : List Frame} {w : Word} {m : LineMode} (settled : Settled s)
    (one : f.values = [w]) (inLine : m ≠ .bypass) :
    let t := admitted s (replied f (Reply.echo .ok) (changeMode m (taken rest s)))
    Answer t f rest 0 [w] ∧ t.line.mode = m ∧ StatusMade .mode s t ∧ t.line.bypassOut = inReset s ∧
      t.line.forward = s.line.forward ∧ t.line.downstream = s.line.downstream ∧ t.channels = s.channels ∧
      t.rod = s.rod ∧ t.bill = s.bill ∧ t.lag = s.lag ∧ t.gov = s.gov ∧ t.tables = s.tables :=
  modeEntered_of_calm settled one inLine (changeMode_calm inLine _)
    (changeMode_keepsDue inLine (taken rest s) _ (setMode_statusDue m _))

/-- Settles O27: the rules of `modeBody` in their order; a change is `setMode` and what follows it. -/
theorem modeRequestIsAnswered : Obligations.ModeRequestIsAnswered := by
  intro s f rest w asks one
  have value : f.val 0 = w.toNat := val_zero_of_values one
  have asked {m : LineMode} (h : modeAsked w.toNat = some m) : modeAsked (f.val 0) = some m := value ▸ h
  have run {r : Reply} (body : modeBody f (taken rest s) = (taken rest s, some r)) :=
    exec_mode_answered asks one body
  refine ⟨fun large => run (modeBody_badValue (value ▸ modeAsked_eq_none large)), fun zero mode => ?_,
    fun job asksMode => ?_, fun job asksMode mode => ?_, fun job asksMode mode => ?_, fun job asksMode mode => ?_,
    fun job asksMode mode => ?_⟩
  · subst zero
    exact run (modeBody_inForce (asked rfl) (fun h => h.2 rfl) mode.symm)
  · rcases asksMode with rfl | rfl
    · exact run (modeBody_busy (asked rfl) job (by decide))
    · exact run (modeBody_busy (asked rfl) job (by decide))
  · subst asksMode
    exact run (modeBody_inForce (asked rfl) (fun h => job h.1) mode.symm)
  · subst asksMode
    exact run (modeBody_inForce (asked rfl) (fun h => job h.1) mode.symm)
  · subst asksMode
    have free : ¬((taken rest s).bill.job = .ending ∧ LineMode.observe ≠ .bypass) := fun h => job h.1
    refine ⟨fun channel => ?_, fun channel settings => ?_, fun settled channel settings => ?_⟩
    · exact run (modeBody_notReady (asked rfl) free (Ne.symm mode) (unmet_observe_channel channel))
    · exact run (modeBody_notReady (asked rfl) free (Ne.symm mode) (unmet_observe_settings channel settings))
    · have met : unmet .observe (taken rest s) = none := unmet_eq_none (by
        simp only [requirements, List.forall_mem_cons]
        exact ⟨channel, settings, nofun⟩)
      exact ⟨_, exec_mode_changed asks one (modeBody_changed (asked rfl) free (Ne.symm mode) met),
        modeEntered settled one (by decide)⟩
  · subst asksMode
    intro needs
    have free : ¬((taken rest s).bill.job = .ending ∧ LineMode.govern ≠ .bypass) := fun h => job h.1
    refine ⟨fun i first => ?_, fun settled all => ?_⟩
    · have unmetFirst : unmet .govern (taken rest s) = some (i + 1) :=
        congrArg (Option.map (· + 1)) first
      exact run (modeBody_notReady (asked rfl) free (Ne.symm mode) unmetFirst)
    · exact ⟨_, exec_mode_changed asks one
          (modeBody_changed (asked rfl) free (Ne.symm mode) (unmet_eq_none (m := .govern) (s := taken rest s) all)),
        modeEntered settled one (by decide)⟩

/-! ## Entering BYPASS (R15) -/

/-- In BYPASS a notice to the units changes the depth unit, the stroke rates with the flow in, and the event unit's
share. -/
structure BypassNotice (s t : State) : Prop where
  rest : EventOnly ((s.setDepth t.depth).setCirc t.circ) t
  circ : t.circ = { s.circ with rate1 := t.circ.rate1, rate2 := t.circ.rate2, flowIn := t.circ.flowIn }

theorem EventOnly.setDepth {s t : State} (h : EventOnly s t) (x : DepthState) :
    EventOnly (s.setDepth x) (t.setDepth x) := { h with depth := rfl }

theorem EventOnly.setCirc {s t : State} (h : EventOnly s t) (x : CircState) :
    EventOnly (s.setCirc x) (t.setCirc x) := { h with circ := rfl }

theorem BypassNotice.trans {s t u : State} (h : BypassNotice s t) (k : BypassNotice t u) : BypassNotice s u where
  rest := EventOnly.trans ((h.rest.setDepth u.depth).setCirc u.circ) k.rest
  circ := by rw [k.circ, h.circ]

theorem EventOnly.bypassNotice {s t : State} (h : EventOnly s t) : BypassNotice s t where
  rest := by
    rw [h.depth, h.circ]
    exact h
  circ := by rw [h.circ]

theorem BypassNotice.setChannels {s t : State} (h : BypassNotice s t) (x : Vector Channel 16) :
    BypassNotice (s.setChannels x) (t.setChannels x) := ⟨{ h.rest with channels := rfl }, h.circ⟩

theorem BypassNotice.setGov {s t : State} (h : BypassNotice s t) (x : GovState) :
    BypassNotice (s.setGov x) (t.setGov x) := ⟨{ h.rest with gov := rfl }, h.circ⟩

theorem BypassNotice.mode {s t : State} (h : BypassNotice s t) : t.line.mode = s.line.mode := h.rest.mode

theorem BypassNotice.ofDepth (s : State) (x : DepthState) : BypassNotice s (s.setDepth x) := ⟨EventOnly.refl _, rfl⟩

theorem BypassNotice.ite {s t u : State} {c : Prop} [Decidable c] (h : BypassNotice s t) (k : BypassNotice s u) :
    BypassNotice s (if c then t else u) := by
  split <;> assumption

section
variable (s : State)

theorem setRate_bypassNotice (p : Pump) (r : Option Nat) : BypassNotice s (setRate p r s) := by
  unfold setRate
  refine BypassNotice.ite (EventOnly.refl s).bypassNotice ?_
  have written (x : CircState) (h : x = { s.circ with rate1 := x.rate1, rate2 := x.rate2, flowIn := x.flowIn }) :
      BypassNotice s (s.setCirc x) := ⟨EventOnly.refl _, h⟩
  cases p with
  | one => exact (written _ rfl).trans (pumpingChanged_eventOnly _).bypassNotice
  | two => exact (written _ rfl).trans (pumpingChanged_eventOnly _).bypassNotice

theorem recomputeBits_bypassNotice : BypassNotice s (recomputeBits s) := .ofDepth s _

theorem recomputeTop_bypassNotice : BypassNotice s (recomputeTop s) := by
  unfold recomputeTop
  split
  · exact (BypassNotice.ofDepth s _).trans (recomputeBits_bypassNotice _)
  · exact (EventOnly.refl s).bypassNotice

theorem slipsNotice_bypassNotice : BypassNotice s (slipsNotice s) := by
  unfold slipsNotice
  dsimp only
  split
  · exact (EventOnly.refl s).bypassNotice
  · split
    · exact ((BypassNotice.ofDepth s _).trans (recomputeTop_bypassNotice _)).trans (.ofDepth _ _)
    · exact (BypassNotice.ofDepth s _).trans (recomputeTop_bypassNotice _)
    · exact .ofDepth s _

theorem recomputeLoad_bypassNotice : BypassNotice s (recomputeLoad s) :=
  (BypassNotice.ofDepth s _).trans (setCondition_eventOnly _ _ _ _).bypassNotice

theorem recomputeWeight_bypassNotice : BypassNotice s (recomputeWeight s) :=
  (BypassNotice.ofDepth s _).trans (recomputeLoad_bypassNotice _)

theorem recomputeCandidate_bypassNotice : BypassNotice s (recomputeCandidate s) :=
  (BypassNotice.ofDepth s _).trans (recomputeCandidate_eventOnly s).bypassNotice

theorem evalReturnLow_eventOnly : EventOnly s (evalReturnLow s) := setCondition_eventOnly _ _ _ s

theorem reportLimit_eventOnly (c : Ch) (l : LimitNo) : EventOnly s (reportLimit c l s) := by
  unfold reportLimit
  split
  · exact report_eventOnly _ _ s
  · exact EventOnly.refl s

variable {s}

/-- In BYPASS a state notice of PIT_VOLUME changes nothing (R107). -/
theorem pitStateNotice_bypass (mode : s.line.mode = .bypass) (v : ValueState) : pitStateNotice v s = s := by
  refine if_neg fun h => ?_
  have line := h.1
  rw [inLine, mode] at line
  cases line

theorem stateNotice_bypassNotice (mode : s.line.mode = .bypass) (c : Ch) (v : ValueState) :
    BypassNotice s (stateNotice c v s) := by
  have same := (EventOnly.refl s).bypassNotice
  unfold stateNotice
  dsimp only
  split
  · exact .ite (setRate_bypassNotice s _ _) same
  · exact .ite (setRate_bypassNotice s _ _) same
  · exact (evalReturnLow_eventOnly s).bypassNotice
  · rw [pitStateNotice_bypass mode]
    exact same
  · exact recomputeLoad_bypassNotice s
  · exact recomputeTop_bypassNotice s
  · exact slipsNotice_bypassNotice s
  · exact recomputeWeight_bypassNotice s
  · exact same

theorem channelOccur_eventOnly (c : Ch) (cause aux : Nat) (s : State) : EventOnly s (channelOccur c cause aux s) :=
  occurNat_eventOnly _ _ s

theorem channelChanged_bypassNotice (mode : s.line.mode = .bypass) (c : Ch) (before : ValueState) :
    BypassNotice s (channelChanged c before s) := by
  have reported : EventOnly s (reportFault c (reportLimits c s)) :=
    ((reportLimit_eventOnly s c .l1).trans (reportLimit_eventOnly _ c .l2)).trans (report_eventOnly _ _ _)
  unfold channelChanged
  dsimp only
  split
  · exact reported.bypassNotice
  · split
    · have occurred := (reported.trans (channelOccur_eventOnly c 1 0 _)).bypassNotice
      exact occurred.trans (stateNotice_bypassNotice (occurred.mode.trans mode) c _)
    · have occurred := (reported.trans (channelOccur_eventOnly c 2 0 _)).bypassNotice
      exact occurred.trans (stateNotice_bypassNotice (occurred.mode.trans mode) c _)
    · exact reported.bypassNotice.trans (stateNotice_bypassNotice (reported.mode.trans mode) c _)

theorem foldl_channelChanged_bypassNotice (before : Ch → ValueState) (cs : List Ch) :
    ∀ {s : State}, s.line.mode = .bypass →
      BypassNotice s (cs.foldl (fun t c => channelChanged c (before c) t) s) := by
  induction cs with
  | nil => exact fun _ => (EventOnly.refl _).bypassNotice
  | cons c rest ih =>
    intro s mode
    have first := channelChanged_bypassNotice mode c (before c)
    exact first.trans (ih (first.mode.trans mode))

/-- In BYPASS, channels that change bring no more than notices. -/
theorem changeChannels_bypassNotice (mode : s.line.mode = .bypass) (cs : List Ch) (g : Ch → Channel → Channel) :
    BypassNotice (s.setChannels (changeChannels cs g s).channels) (changeChannels cs g s) := by
  obtain ⟨written, same, -⟩ := foldl_setChannel (fun c => g c s.channels[c]) cs s
  unfold changeChannels
  dsimp only
  rw [same]
  have notices := foldl_channelChanged_bypassNotice (s := s.setChannels written) (fun c => s.channels[c].state) cs mode
  rw [notices.rest.channels]
  exact notices

end

/-- The line interface as BYPASS is entered: the mode, the output, STATUS due, the FIFOs and injections empty (R15). -/
def lineInBypass (s : State) : State :=
  (setMode .bypass s).setLine { (setMode .bypass s).line with forward := [], downstream := [], injections := [] }

theorem lineInBypass_sameUnits (s : State) : SameUnits s (lineInBypass s) := ⟨rfl, rfl, rfl, rfl, rfl, rfl, rfl, rfl, rfl⟩

/-- Entering BYPASS after the line interface has done so brings the withdrawn channels, notices and an empty governor. -/
theorem enterBypass_notice (s : State) :
    BypassNotice (((lineInBypass s).setChannels (channelsWithdrawn s).channels).setGov (enterBypass s).gov)
      (enterBypass s) := by
  have mode := bypassEntered_mode s
  have entered : BypassNotice (lineInBypass s) (bypassEntered s) := recomputeCandidate_bypassNotice _
  have changed : BypassNotice ((bypassEntered s).setChannels (channelsWithdrawn s).channels) (channelsWithdrawn s) :=
    changeChannels_bypassNotice mode _ _
  have rates : BypassNotice (channelsWithdrawn s) (ratesBypass (channelsWithdrawn s)) :=
    (setRate_bypassNotice _ _ _).trans (setRate_bypassNotice _ _ _)
  exact (((entered.setChannels _).trans changed).trans rates).setGov _

theorem enterBypass_due (s : State) :
    (enterBypass s).line.statusDue = some (s.line.statusDue.getD .mode) := by
  have entered : Keeps (fun _ => False) (lineInBypass s) (bypassEntered s) := recomputeCandidate_keeps _
  have ends : Keeps (fun _ => False) (channelsWithdrawn s) (enterBypass s) :=
    (ratesBypass_keeps _).trans (governorBypass_keeps _)
  exact (ends.waits id).due _ (((channelsWithdrawn_keeps s).waits (by simp)).due _ ((entered.waits id).due _ rfl))

/-- The BYPASS output before does not matter as BYPASS is entered: it is driven anew. -/
theorem enterBypass_driveBypass (s : State) : enterBypass (driveBypass s) = enterBypass s := by
  have same : setMode .bypass (driveBypass s) = setMode .bypass s := rfl
  rw [enterBypass, same]
  rfl

theorem enterBypass_law (s : State) : BypassLaw (enterBypass s) :=
  enterBypass_driveBypass s ▸ enterBypass_bypassLaw (s := driveBypass s) rfl

theorem enterBypass_channels (s : State) (c : Ch) :
    (enterBypass s).channels[c] = (bypassEntered s).channels[c].withdrawn .absentUnsettled := by
  have ends : Keeps (fun _ => False) (channelsWithdrawn s) (enterBypass s) :=
    (ratesBypass_keeps _).trans (governorBypass_keeps _)
  rw [ends.channels id, channelsWithdrawn_channels]

/-- The state at the end of a MODE request that has entered BYPASS: the answer, the line interface, the channels, the
stroke rates, the activity and the governor as R15 has them, and the other units kept. -/
theorem bypassEntered_of_notice {s v : State} {f : Frame} {rest : List Frame} {channels : Vector Channel 16}
    {gov : GovState} (settled : Settled s) (zero : f.values = [0])
    (notice : BypassNotice (((lineInBypass (taken rest s)).setChannels channels).setGov gov) v) (law : BypassLaw v)
    (due : v.line.statusDue = some (s.line.statusDue.getD .mode)) :
    let t := admitted s (replied f (Reply.echo .ok) v)
    Answer t f rest 0 [0] ∧
      t.line.mode = .bypass ∧ t.line.bypassOut = true ∧ t.line.forward = [] ∧ t.line.downstream = [] ∧
      t.line.injections = [] ∧ s.line.records <+: t.line.records ∧ StatusMade .mode s t ∧
      SameUnits v t ∧ t.circ = { s.circ with rate1 := none, rate2 := none, flowIn := t.circ.flowIn } ∧
      t.interval = s.interval ∧ t.lag = s.lag ∧ t.bill = s.bill ∧ t.rod = s.rod ∧ t.tables = s.tables := by
  intro t
  have mode : v.line.mode = .bypass := notice.rest.mode
  have records : v.line.records = s.line.records := notice.rest.records
  have before := lineInBypass_sameUnits (taken rest s)
  have rod : v.rod = s.rod := notice.rest.rod.trans before.rod
  have bill : v.bill = s.bill := notice.rest.bill.trans before.bill
  have lag : v.lag = s.lag := notice.rest.lag.trans before.lag
  have same : SameButRecords (replied f (Reply.echo .ok) v) t :=
    admitted_replied (f := f) (r := Reply.echo .ok) settled
      (.ofUnits rod bill lag) records
  have units := replied_sameUnits.trans same.sameUnits
  have ends : Admits (replied f (Reply.echo .ok) v) t := admitted_admits s _
  have line : t.line = { v.line with
      response := t.line.response, statusDue := t.line.statusDue, injections := t.line.injections
      records := t.line.records, serial := t.line.serial, highWater := t.line.highWater } := by
    rw [same.1]; rfl
  have output : v.line.bypassOut = true := by
    rw [law.output, bypassAsserted, mode]
    rfl
  have still : t.line.injections = v.line.injections := ends.quiet fun h => nomatch mode.symm.trans h
  have answer : Answer t f rest 0 (echo f) := same.answer (replied_answer notice.rest.requests)
  have grows : v.line.records <+: t.line.records := ends.grows
  rw [echo_of_values zero] at answer
  rw [records] at grows
  refine ⟨answer, by rw [line, ← mode], by rw [line, ← output], by rw [line, ← law.forward mode],
    by rw [line, ← law.downstream mode], still.trans (law.injections mode), grows,
    statusMade_admitted_replied records due, units, ?_, units.interval.trans (notice.rest.interval.trans before.interval),
    units.lag.trans lag, units.bill.trans bill, units.rod.trans rod,
    units.tables.trans (notice.rest.tables.trans before.tables)⟩
  rw [units.circ, notice.circ, law.rate1 mode, law.rate2 mode]
  rfl

theorem enterBypass_gov (s : State) :
    (enterBypass s).gov.setpoint1 = none ∧ (enterBypass s).gov.setpoint2 = none ∧ (enterBypass s).gov.holder = .none ∧
      (enterBypass s).gov.inZone = false ∧ (enterBypass s).gov.moving = false := by
  rw [enterBypass_eq]
  exact ⟨rfl, rfl, rfl, rfl, rfl⟩

/-- Settles O26: BYPASS is entered with `enterBypass`, and the end of the step lets records enter. -/
theorem modeBypassIsEntered : Obligations.ModeBypassIsEntered := by
  intro s f rest settled asks zero mode
  have body : modeBody f (taken rest s) = (changeMode .bypass (taken rest s), some (Reply.echo .ok)) :=
    modeBody_changed (by rw [val_zero_of_values zero]; rfl) (fun h => h.2 rfl) (Ne.symm mode) rfl
  have law := enterBypass_law (taken rest s)
  have notice := enterBypass_notice (taken rest s)
  have gov := enterBypass_gov (taken rest s)
  have entered : (enterBypass (taken rest s)).line.mode = .bypass := notice.rest.mode
  obtain ⟨answer, inForce, output, forward, downstream, injections, records, made, units, circ, interval, lag, bill, rod,
    tables⟩ := bypassEntered_of_notice (f := f) settled zero notice law (enterBypass_due _)
  obtain ⟨setpoint1, setpoint2, holder, inZone, moving⟩ := gov
  refine ⟨_, exec_mode_changed asks zero body, answer, inForce, output, forward, downstream, injections, records, made,
    fun c => ?_, (congrArg DepthState.activity units.depth).trans (law.activity entered),
    (congrArg DepthState.dwellStart units.depth).trans (law.dwell entered),
    (congrArg GovState.setpoint1 units.gov).trans setpoint1, (congrArg GovState.setpoint2 units.gov).trans setpoint2,
    (congrArg GovState.holder units.gov).trans holder, (congrArg GovState.inZone units.gov).trans inZone,
    (congrArg GovState.moving units.gov).trans moving, circ, interval, lag, bill, rod, tables⟩
  have channel : _ = (bypassEntered (taken rest s)).channels[c].withdrawn .absentUnsettled :=
    (congrArg (·[c]) units.channels).trans (enterBypass_channels (taken rest s) c)
  exact ⟨congrArg Channel.state channel, congrArg Channel.value channel, congrArg Channel.mark channel,
    congrArg Channel.baseline channel⟩

end Sys2Proof.Machine

/-! # Limits, strokes, depths and the two timers of the depth unit (R36, R37, R45 to R63, R88 to R90, R120) -/

namespace Sys2Proof.Machine

/-! ## Occurrences -/

/-- An occurrence in a state whose account of the source differs from an earlier state's in the condition alone. -/
theorem occurred_raise {s u : State} {src : Source} (d : BitVec 32) (a : Bool) (apart : src ≠ srcPumpClamp)
    (account : ∃ b, u.event.accounts[src] = { s.event.accounts[src] with cond := b })
    (clock : u.depth.jobClock = s.depth.jobClock) :
    Occurred src d a s (raise { src := src, detail := d, applied := a } u) := by
  obtain ⟨b, account⟩ := account
  have taken := (raise_account { src := src, detail := d, applied := a } u src apart).trans (if_pos rfl)
  rw [account] at taken
  unfold Occurred
  rw [taken]
  exact ⟨congrArg (if s.event.accounts[src].pending then s.event.accounts[src].firstTime else ·) clock, rfl, rfl,
    .inl ⟨rfl, rfl⟩⟩

theorem occurred_occurNat {s u : State} {src : Source} (d : Nat) (apart : src ≠ srcPumpClamp)
    (account : ∃ b, u.event.accounts[src] = { s.event.accounts[src] with cond := b })
    (clock : u.depth.jobClock = s.depth.jobClock) : Occurred src (BitVec.ofNat 32 d) true s (occurNat src d u) :=
  occurred_raise _ _ apart account clock

/-! ## Limits (R37) -/

theorem limitSource_apart_clamp {c : Ch} {l : LimitNo} {q : Source} (h : limitSource c l = some q) : Apart q := by
  rintro rfl
  exact absurd (limitSource_range h).2 (by decide)

/-- A trip is an occurrence of the limit's source with the value as its detail (R37). -/
theorem evalLimit_occurred {s : State} {c : Ch} {v : Nat} {l : LimitNo} {src : Source}
    (source : limitSource c l = some src) (trips : limitNext s c l v = .tripped)
    (before : s.channels[c].limit l ≠ .tripped) :
    Occurred src (BitVec.ofNat 32 v) true s (evalLimit c v l s) := by
  have trip : evalLimit c v l s = occurNat src v (judgedLimit c v l s) := by
    simp only [evalLimit, source]
    exact if_pos ⟨trips, before⟩
  have apart := limitSource_apart_clamp source
  rw [trip]
  refine occurred_occurNat v apart ⟨cond (judgedLimit c v l s) src, ?_⟩ ?_
  · unfold judgedLimit reportLimit
    rw [source]
    dsimp only
    rw [report_account _ _ _ _ apart, if_pos rfl, report_cond, if_pos rfl]
    rfl
  · rw [(judgedLimit_eventOnly c v l s).depth]
    rfl

theorem withLimit_limit_self (x : Channel) (l : LimitNo) (st : LimitState) : (x.withLimit l st).limit l = st := by
  rw [withLimit_limit, if_pos rfl]

/-- Settles O21: the next state of a limit is `limitAfter` on the record's page, by the record's state before. -/
theorem limitFollowsValue : Obligations.LimitFollowsValue := by
  intro s c v l src source pages before threshold hysteresis t after
  have channel : t.channels[c] = s.channels[c].withLimit l (limitNext s c l v) := by
    rw [evalLimit_channels, if_pos rfl]
  have units := (evalLimit_eventOnly c v l s).sameUnits
  have next : after = limitAfter (limitControlIn pages c l) threshold hysteresis v before := by
    show t.channels[c].limit l = _
    rw [channel, withLimit_limit_self]
    rfl
  have condition : cond t src = (after == .tripped) := by
    rw [evalLimit_cond, if_pos source, next]
    rfl
  have other : ∀ d : Ch, d ≠ c → t.channels[d] = s.channels[d] := fun d hd => by rw [evalLimit_channels, if_neg hd]
  refine ⟨fun control => ⟨fun was => ?_, fun was => ?_, fun was => ?_⟩,
    fun control => ⟨fun was => ?_, fun was => ?_, fun was => ?_⟩, fun control => ?_, condition,
    fun trips untripped => evalLimit_occurred source (next.symm.trans trips) untripped, other,
    by rw [channel, withLimit_value], by rw [channel, withLimit_state], units.rod, units.depth, units.circ, units.lag,
    units.bill, units.gov⟩
  all_goals rw [next, control]
  case refine_7 => cases before <;> rfl
  all_goals rw [was]; rfl

/-! ## Strokes and the arrivals they bring (R89, R90, R120) -/

theorem addStrokes_of_settings {s : State} {g : Settings} {d : Nat} (active : settings s = some g) (pos : 0 < d)
    (p : Pump) : addStrokes p d s =
      lagArrivals (s.setCirc { s.circ with pumped := min max64 (s.circ.pumped + d * strokeVolume g p) }) := by
  rw [addStrokes, active]
  exact if_neg (Nat.ne_of_gt pos)

theorem settings_congr {s t : State} (h : t.tables = s.tables) : settings t = settings s := by
  rw [settings, settings, activeCopy, activeCopy, h]

theorem held_congr {s t : State} (h : t.channels = s.channels) (c : Ch) : held t c = held s c := by
  rw [held, held, h]

/-- The state in which an accepted stroke sample has set the rate and V_p (R89, R90). -/
def stroked (p : Pump) (d dt : Nat) (g : Settings) (s : State) : State :=
  let u := setRate p (some (strokeRate d dt)) s
  u.setCirc { u.circ with pumped := min max64 (s.circ.pumped + d * strokeVolume g p) }

theorem strokeSample_of_settings {s : State} {g : Settings} {d : Nat} (active : settings s = some g) (pos : 0 < d)
    (p : Pump) (dt : Nat) : strokeSample p d dt s = lagArrivals (stroked p d dt g s) := by
  have calm := setRate_calm s p (some (strokeRate d dt))
  rw [strokeSample, addStrokes_of_settings ((settings_congr calm.tables).trans active) pos, calm.pumped]
  rfl

/-- An entry of the lag queue that a pumped volume reaches takes the stage of the moment (R120). -/
def LagEntry.reached (pumped : Nat) (stage : LagStage) (e : LagEntry) : LagEntry :=
  if e.arrival ≤ pumped then { e with stage := stage } else e

theorem LagEntry.isWaiting_iff (e : LagEntry) : e.isWaiting = true ↔ e.stage = .waiting := by
  unfold isWaiting
  cases e.stage <;> simp

theorem map_reached_of_beyond {pumped : Nat} {stage : LagStage} {l : List LagEntry}
    (beyond : ∀ e ∈ l, pumped < e.arrival) : l.map (LagEntry.reached pumped stage) = l :=
  (List.map_congr_left fun e he => if_neg (Nat.not_le.2 (beyond e he))).trans (List.map_id' l)

/-- The walk of a queue that waits in order of arrival volume reaches exactly the entries whose volume is reached. -/
theorem arrivalWalk_of_sorted (pumped : Nat) (stage : LagStage) (l : List LagEntry)
    (waits : ∀ e ∈ l, e.stage = .waiting) (sorted : l.Pairwise fun a b => a.arrival ≤ b.arrival) :
    arrivalWalk pumped stage l = l.map (LagEntry.reached pumped stage) := by
  induction l with
  | nil => rfl
  | cons e rest ih =>
    obtain ⟨first, sorted⟩ := List.pairwise_cons.1 sorted
    have waiting : e.isWaiting = true := e.isWaiting_iff.2 (waits e List.mem_cons_self)
    rw [arrivalWalk, if_pos waiting]
    by_cases h : e.arrival ≤ pumped
    · rw [if_pos h, ih (fun x hx => waits x (List.mem_cons_of_mem _ hx)) sorted, List.map_cons, LagEntry.reached,
        if_pos h]
    · have beyond : ∀ x ∈ e :: rest, pumped < x.arrival := fun x hx =>
        (List.mem_cons.1 hx).elim (fun eq => eq ▸ Nat.lt_of_not_le h) fun m =>
          Nat.lt_of_lt_of_le (Nat.lt_of_not_le h) (first x m)
      rw [if_neg h, map_reached_of_beyond beyond]

theorem setRate_cond_pitLoss (p : Pump) (r : Option Nat) (s : State) :
    cond (setRate p r s) srcPitLoss = cond s srcPitLoss := by
  have reported (t : State) : cond (pumpingChanged t) srcPitLoss = cond t srcPitLoss := by
    rw [pumpingChanged, evalReturnLow, setCondition_cond, if_neg (by decide), evalNoFlow, setCondition_cond,
      if_neg (by decide)]
  unfold setRate
  split
  · rfl
  · cases p <;> exact reported _

/-- The stage that a stroke sample gives the entries it reaches: the job time, return flow, density and losses of the
moment (R120). -/
theorem stroked_dueStage (p : Pump) (d dt : Nat) (g : Settings) (s : State) :
    dueStage (stroked p d dt g s) = .due s.depth.jobClock (held s 3) (held s 12) (cond s srcPitLoss) := by
  have calm := setRate_calm s p (some (strokeRate d dt))
  have loss : cond (stroked p d dt g s) srcPitLoss = cond s srcPitLoss := setRate_cond_pitLoss ..
  rw [dueStage, loss, held_congr (t := stroked p d dt g s) calm.channels,
    held_congr (t := stroked p d dt g s) calm.channels, jobTime]
  exact congrArg (LagStage.due · _ _ _) calm.jobClock

theorem lagArrivals_circ (s : State) : (lagArrivals s).circ = s.circ := rfl

theorem stroked_circ (p : Pump) (d dt : Nat) (g : Settings) (s : State) : (stroked p d dt g s).circ = { s.circ with
    rate1 := match p with | .one => some (strokeRate d dt) | .two => s.circ.rate1
    rate2 := match p with | .one => s.circ.rate2 | .two => some (strokeRate d dt)
    pumped := min max64 (s.circ.pumped + d * strokeVolume g p)
    flowIn := (setRate p (some (strokeRate d dt)) s).circ.flowIn } :=
  congrArg (fun x : CircState => { x with pumped := min max64 (s.circ.pumped + d * strokeVolume g p) })
    (setRate_circ p (some (strokeRate d dt)) s)

/-- Settles O22: a stroke sample is `stroked` and then the walk along the lag queue. -/
theorem pumpedVolumeBringsArrivals : Obligations.PumpedVolumeBringsArrivals := by
  intro s d dt g active pos
  have circ (p : Pump) : (strokeSample p d dt s).circ = (stroked p d dt g s).circ :=
    (congrArg State.circ (strokeSample_of_settings active pos p dt)).trans (lagArrivals_circ _)
  refine ⟨?one, ?two, fun p waits sorted => ?arrivals⟩
  case one =>
    dsimp only
    rw [circ, stroked_circ]
    exact ⟨rfl, rfl, rfl⟩
  case two =>
    dsimp only
    rw [circ, stroked_circ]
    exact ⟨rfl, rfl, rfl⟩
  case arrivals =>
    have calm := setRate_calm s p (some (strokeRate d dt))
    intro t
    have walked : t = lagArrivals (stroked p d dt g s) := strokeSample_of_settings active pos p dt
    have lag : (stroked p d dt g s).lag = s.lag := calm.lag
    refine ⟨?_, ?_, ?_, ?_, ?_, ?_⟩
    · have queue : t.lag.queue = arrivalWalk (stroked p d dt g s).circ.pumped (dueStage (stroked p d dt g s))
          (stroked p d dt g s).lag.queue := congrArg (·.lag.queue) walked
      have pumped : t.circ.pumped = (stroked p d dt g s).circ.pumped := congrArg (·.circ.pumped) walked
      rw [queue, pumped, lag, arrivalWalk_of_sorted _ _ _ waits sorted, stroked_dueStage]
      rfl
    · exact (congrArg (·.lag.hold) walked).trans (congrArg LagState.hold lag)
    · exact (congrArg State.rod walked).trans calm.rod
    · exact (congrArg State.bill walked).trans calm.bill
    · exact (congrArg State.gov walked).trans calm.gov
    · exact (congrArg State.channels walked).trans calm.channels

/-! ## Depths and weights (R45, R48, R53 to R55) -/

theorem clampDepth_eq (x : Int) :
    clampDepth x = if x < 0 then 0 else if 2000000 < x then 2000000 else x.toNat := by
  unfold clampDepth
  split
  · omega
  · split <;> omega

theorem recomputeBits_depth (s : State) : (recomputeBits s).depth =
    { s.depth with rawBit := rawBitOf s, usedBit := (rawBitOf s).map fun r => min r s.depth.hole } := rfl

theorem recomputeTop_depth {s : State} (mode : s.depth.topMode = .following) :
    (recomputeTop s).depth = (recomputeBits (s.setDepth { s.depth with top := followingTop s })).depth := by
  rw [recomputeTop, mode]

theorem followingTop_of_held {s : State} {g : Settings} {v : Nat} (active : settings s = some g)
    (block : held s 7 = some v) : followingTop s = some (v + g.topDriveOffset) := by
  rw [followingTop, block, active]

theorem rawBitOf_invalid {s : State} (invalid : s.rod.valid = false) : rawBitOf s = none := by
  rw [rawBitOf, invalid]

theorem rawBitOf_valid {s : State} {x : Int} (valid : s.rod.valid = true) (top : s.depth.top = some x) :
    rawBitOf s = some (clampDepth (s.rod.length - x)) := by
  rw [rawBitOf, valid, top]

/-- The state in which the suspended load and WOB have been recomputed, before OVERPULL is reported (R53, R54). -/
def weighed (s : State) : State :=
  let u := s.setDepth { s.depth with buoyed := buoyedWeight s.rod.weight ((held s 12).getD 1000) }
  u.setDepth { u.depth with suspended := suspendedLoad u, wobN := wobOf u (suspendedLoad u) }

theorem recomputeWeight_eq (s : State) : recomputeWeight s =
    setCondition srcOverpull (overpull (weighed s)) (fitSignedBits32 ((overpullExcess (weighed s)).getD 0)) (weighed s) :=
  rfl

section
variable {s : State} {g : Settings} {h : Nat}

theorem suspendedLoad_of_held (active : settings s = some g) (hook : held s 6 = some h) :
    suspendedLoad s = some ((h : Int) * 10 - g.blockWeight) := by
  rw [suspendedLoad, hook, active]

theorem overpull_of_suspended {load : Int} (active : settings s = some g) (suspended : s.depth.suspended = some load) :
    overpull s = (s.rod.valid && decide ((g.overpullLimit : Int) < load - s.depth.buoyed)) := by
  rw [overpull, overpullExcess, suspended, active]
  cases s.rod.valid <;> rfl

theorem wobOf_some (s : State) (load : Int) :
    wobOf s (some load) = if s.rod.valid then some ((s.depth.buoyed : Int) - load).toNat else none := by
  cases valid : s.rod.valid <;> simp [wobOf, valid]

theorem weighed_suspended (active : settings s = some g) (hook : held s 6 = some h) :
    (weighed s).depth.suspended = some ((h : Int) * 10 - g.blockWeight) :=
  suspendedLoad_of_held (s := s.setDepth _) active hook

theorem weighed_wobN (active : settings s = some g) (hook : held s 6 = some h) :
    (weighed s).depth.wobN = if s.rod.valid then
      some ((buoyedWeight s.rod.weight ((held s 12).getD 1000) : Int) - ((h : Int) * 10 - g.blockWeight)).toNat
    else none := by
  show wobOf _ (weighed s).depth.suspended = _
  rw [weighed_suspended active hook]
  exact wobOf_some _ _

theorem weighed_overpull (active : settings s = some g) (hook : held s 6 = some h) :
    overpull (weighed s) = (s.rod.valid && decide ((g.overpullLimit : Int) <
      (h : Int) * 10 - g.blockWeight - buoyedWeight s.rod.weight ((held s 12).getD 1000))) :=
  overpull_of_suspended (s := weighed s) active (weighed_suspended active hook)

end

/-- The state with a string top, before the bit depths follow it (R45). -/
def topped (x : Int) (s : State) : State := s.setDepth { s.depth with top := some x }

/-- Settles O23: the bit depths by `rawBitOf` over the top that `followingTop` gives, the weights by `weighed`. -/
theorem depthAndWeightsFollow : Obligations.DepthAndWeightsFollow := by
  intro s g active
  constructor
  · intro v mode block t
    have depth := recomputeTop_depth mode
    rw [followingTop_of_held active block, recomputeBits_depth] at depth
    have raw : t.depth.rawBit = rawBitOf (topped (v + g.topDriveOffset) s) := congrArg DepthState.rawBit depth
    have used : t.depth.usedBit = (rawBitOf (topped (v + g.topDriveOffset) s)).map fun r => min r s.depth.hole :=
      congrArg DepthState.usedBit depth
    refine ⟨congrArg DepthState.top depth, fun invalid => ?_, fun valid => ?_⟩
    · rw [rawBitOf_invalid (s := topped _ s) invalid] at raw used
      exact ⟨raw, used⟩
    · rw [rawBitOf_valid (s := topped _ s) valid rfl, clampDepth_eq] at raw used
      exact ⟨raw, used⟩
  · intro h hook t density buoyed load
    have reported : EventOnly (weighed s) t := setCondition_eventOnly _ _ _ _
    refine ⟨congrArg DepthState.buoyed reported.depth,
      (congrArg DepthState.suspended reported.depth).trans (weighed_suspended active hook),
      (congrArg DepthState.wobN reported.depth).trans (weighed_wobN active hook), ?_, reported.rod, reported.circ,
      reported.lag, reported.bill, (congrArg DepthState.hole reported.depth).trans rfl⟩
    show cond (recomputeWeight s) srcOverpull = _
    rw [recomputeWeight_eq, setCondition_cond, if_pos rfl, weighed_overpull active hook]
    rfl

/-! ## The dwell and the second (R59, R62, R63) -/

/-- Settles O25: the held candidate becomes the activity by `setActivity`, which brings no more than DRILLING_NO_FLOW. -/
theorem dwellExpiryTakesCandidate : Obligations.DwellExpiryTakesCandidate := by
  intro s start g settled dwell active reached
  have due : dwellReached s = true := by
    simp only [dwellReached, dwell, dwellMs, active, Option.map_some]
    exact decide_eq_true reached
  have expired : expireDwell s = setActivity s.depth.candidate (setCandidate s.depth.candidate none s) := if_pos due
  have unit := setActivity_eventOnly s.depth.candidate (setCandidate s.depth.candidate none s)
  rw [setActivity_depth, ← expired] at unit
  exact ⟨_, rfl, unit.sameRecords.trans (admitted_sameRecords settled (.ofUnits unit.rod unit.bill unit.lag) unit.records)⟩

section
variable {s : State}

theorem accrue_of_line {key : Nat} (h : key < 44) (q r : Nat) (s : State) : accrue key q r s =
    s.setBill { s.bill with lines := s.bill.lines.set key (s.bill.lines[key].accrue (lineDivisor key) q r) } := dif_pos h

/-- An accrual changes the ticket lines alone. -/
theorem accrue_bill (key q r : Nat) (s : State) :
    accrue key q r s = s.setBill { s.bill with lines := (accrue key q r s).bill.lines } := by
  unfold accrue
  split <;> rfl

theorem accrue_quantity {key : Nat} (h : key < 44) (q r : Nat) (k : Fin 44) :
    (accrue key q r s).bill.lines[k].quantity =
      if k.val = key then min max32 (s.bill.lines[k].quantity + q) else s.bill.lines[k].quantity := by
  rw [accrue_of_line h]
  show ((s.bill.lines.set key _)[k]).quantity = _
  simp only [Fin.getElem_fin, Vector.getElem_set]
  by_cases e : key = k.val
  · subst e
    rw [if_pos rfl, if_pos rfl]
    rfl
  · rw [if_neg e, if_neg (Ne.symm e)]

theorem Activity.num_lt (a : Activity) : keyTime a.num < 44 := by cases a <;> decide

theorem billSecond_bill (a : Activity) (s : State) :
    billSecond a s = s.setBill { s.bill with lines := (billSecond a s).bill.lines } := by
  unfold billSecond
  split
  · exact accrue_bill ..
  · rfl

theorem billSecond_closed {a : Activity} (closed : s.bill.ticketOpen = false) : billSecond a s = s :=
  if_neg (Bool.eq_false_iff.1 closed)

theorem clockStep_running (runs : s.depth.clockRuns = true) (below : s.depth.jobClock < 4294967295) :
    clockStep s = billSecond s.depth.activity (s.setDepth { s.depth with jobClock := s.depth.jobClock + 1 }) :=
  if_pos ⟨runs, below⟩

theorem clockStep_stopped (stopped : s.depth.clockRuns = false) : clockStep s = s :=
  if_neg fun h => by rw [stopped] at h; cases h.1

/-- The clock's step changes the job clock and the ticket lines alone. -/
theorem clockStep_eq (s : State) : clockStep s =
    (s.setDepth { s.depth with jobClock := (clockStep s).depth.jobClock }).setBill
      { s.bill with lines := (clockStep s).bill.lines } := by
  unfold clockStep
  split
  · rw [billSecond_bill]
    rfl
  · rfl

end

/-- The state after the clock's step of a whole second (R62, R63). -/
def secondHanded (s : State) : State := clockStep (s.setDepth { s.depth with secondStart := s.depth.secondStart + 1000 })

/-- Settles O24: a whole second is the clock's step, then the candidate; the end of the step leaves the units. -/
theorem secondStepCounts : Obligations.SecondStepCounts := by
  intro s settled due
  have handed := clockStep_eq (s.setDepth { s.depth with secondStart := s.depth.secondStart + 1000 })
  have unit : EventOnly _ (secondStep s) := recomputeCandidate_eventOnly (secondHanded s)
  have calm : Calm (secondHanded s) (secondStep s) := recomputeCandidate_calm (secondHanded s)
  have base : SameUnits ((s.setDepth (secondHanded s).depth).setBill (secondHanded s).bill) (secondHanded s) ∧
      SameOffers s (secondHanded s) ∧ (secondHanded s).line = s.line := by
    rw [secondHanded, handed]
    exact ⟨⟨rfl, rfl, rfl, rfl, rfl, rfl, rfl, rfl, rfl⟩, ⟨rfl, rfl, rfl, rfl⟩, rfl⟩
  obtain ⟨handedUnits, offers, line⟩ := base
  have same := admitted_sameRecords (t := secondStep s) settled (offers.trans (.ofUnits unit.rod unit.bill unit.lag))
    (unit.records.trans (congrArg LineState.records line))
  have units := same.sameUnits
  have ran : exec .secondStep s = .next (admitted s (secondStep s)) :=
    congrArg Host.Outcome.next (if_pos (decide_eq_true due))
  generalize admitted s (secondStep s) = t at *
  have clock : t.depth.jobClock = (secondHanded s).depth.jobClock :=
    (congrArg DepthState.jobClock units.depth).trans calm.jobClock
  have bill : t.bill = (secondHanded s).bill := units.bill.trans unit.bill
  have started : (secondHanded s).depth.secondStart = s.depth.secondStart + 1000 := by
    rw [secondHanded, handed]
    rfl
  refine ⟨t, ran, (congrArg DepthState.secondStart units.depth).trans (calm.secondStart.trans started),
    units.rod.trans (unit.rod.trans handedUnits.rod), units.channels.trans (unit.channels.trans handedUnits.channels),
    units.lag.trans (unit.lag.trans handedUnits.lag), units.tables.trans (unit.tables.trans handedUnits.tables),
    units.interval.trans (unit.interval.trans handedUnits.interval),
    units.circ.trans (unit.circ.trans handedUnits.circ), units.gov.trans (unit.gov.trans handedUnits.gov),
    fun runs below => ?running, fun stopped => ?stopped⟩
  case stopped =>
    have still : secondHanded s = _ := clockStep_stopped stopped
    rw [clock, bill, still]
    exact ⟨rfl, rfl⟩
  case running =>
    have step : secondHanded s = billSecond s.depth.activity _ := clockStep_running runs below
    refine ⟨?_, fun opened key => ?_, fun closed => ?_⟩
    · rw [clock, step, billSecond_bill]
      rfl
    · rw [bill, step, billSecond]
      refine (congrArg (fun x : State => x.bill.lines[key].quantity) (if_pos opened)).trans ?_
      exact accrue_quantity (Activity.num_lt _) ..
    · rw [bill, step, billSecond_closed (by exact closed)]
      rfl

end Sys2Proof.Machine

/-! # Links and frames on the two ports (R1, R2, R9 to R12, R20) -/

namespace Sys2Proof.Machine

/-! ## The account of a source through reports of another -/

/-- Between two states the account of a source differs in its condition at most. -/
def SameAccount (src : Source) (s t : State) : Prop :=
  ∃ b, t.event.accounts[src] = { s.event.accounts[src] with cond := b }

theorem SameAccount.of_eq {src : Source} {s t : State} (h : t.event.accounts[src] = s.event.accounts[src]) :
    SameAccount src s t := ⟨_, h⟩

theorem SameAccount.refl (src : Source) (s : State) : SameAccount src s s := .of_eq rfl

theorem SameAccount.trans {src : Source} {s t u : State} (h : SameAccount src s t) (k : SameAccount src t u) :
    SameAccount src s u := by
  obtain ⟨b, e⟩ := h
  obtain ⟨d, e'⟩ := k
  exact ⟨d, by rw [e', e]⟩

theorem report_sameAccount {src : Source} (apart : src ≠ srcPumpClamp) (q : Source) (b : Bool) (s : State) :
    SameAccount src s (report q b s) := by
  have account := report_account q b s src apart
  split at account
  · exact ⟨b, account⟩
  · exact .of_eq account

/-- An occurrence of another source leaves the account. -/
theorem occurNat_sameAccount {src q : Source} (apart : src ≠ srcPumpClamp) (other : src ≠ q) (d : Nat) (s : State) :
    SameAccount src s (occurNat q d s) := .of_eq ((raise_account _ s src apart).trans (if_neg other))

/-! ## A port that falls DOWN (R2) -/

/-- The state in which a port has fallen DOWN, before it is reported. -/
def downed (p : Port) (s : State) : State := setLink p { linkOf s p with up := false } s

theorem setLink_sameOffers (p : Port) (x : PortLink) (s : State) : SameOffers s (setLink p x s) := by
  cases p <;> exact ⟨rfl, rfl, rfl, rfl⟩

theorem setLink_event (p : Port) (x : PortLink) (s : State) : (setLink p x s).event = s.event := by cases p <;> rfl

theorem setLink_depth (p : Port) (x : PortLink) (s : State) : (setLink p x s).depth = s.depth := by cases p <;> rfl

theorem setLink_records (p : Port) (x : PortLink) (s : State) : (setLink p x s).line.records = s.line.records := by
  cases p <;> rfl

theorem fallDown_eventOnly (p : Port) (s : State) : EventOnly (downed p s) (fallDown p s) :=
  (report_eventOnly _ _ _).trans (occurNat_eventOnly _ _ _)

theorem fallDown_occurred (p : Port) (s : State) :
    Occurred srcLinkDown (BitVec.ofNat 32 (portNo p)) true s (fallDown p s) := by
  refine occurred_occurNat _ (by decide) ?_ ?_
  · have same : SameAccount srcLinkDown s (downed p s) := .of_eq (by rw [downed, setLink_event])
    exact same.trans (report_sameAccount (by decide) _ _ _)
  · rw [reportLinkDown, (report_eventOnly _ _ _).depth, setLink_depth]

theorem linkDownCond_congr {s t : State} (field : t.line.fieldLink = s.line.fieldLink)
    (cab : t.line.cabLink = s.line.cabLink) : linkDownCond t = linkDownCond s := by
  rw [linkDownCond, linkDownCond, field, cab]

theorem fallDown_cond (p : Port) (s : State) : cond (fallDown p s) srcLinkDown = linkDownCond (fallDown p s) := by
  have line := (fallDown_eventOnly p s).line
  rw [linkDownCond_congr (s := downed p s) (by rw [line]) (by rw [line])]
  show cond (raise _ (report _ _ _)) _ = _
  rw [raise_cond, report_cond, if_pos rfl]
  rfl

/-- What the end of a step in which a port has fallen DOWN leaves: the port, the occurrence, the condition (R2). -/
theorem exec_linkDown_due {s : State} {p : Port} (settled : Settled s) (due : linkDownDue s p = true) :
    ∃ t, exec (.linkDown p) s = .next t ∧ SameButRecords (downed p s) t ∧
      Occurred srcLinkDown (BitVec.ofNat 32 (portNo p)) true s t ∧ cond t srcLinkDown = linkDownCond t := by
  have unit := fallDown_eventOnly p s
  have offers : SameOffers s (fallDown p s) := (setLink_sameOffers p _ s).trans unit.sameUnits.offers
  have records : (fallDown p s).line.records = s.line.records := unit.records.trans (setLink_records p _ s)
  have same := admitted_sameRecords settled offers records
  refine ⟨_, congrArg Host.Outcome.next (if_pos due), unit.sameRecords.trans same,
    (fallDown_occurred p s).admitted (by decide) (by decide) (records ▸ List.prefix_refl _) s, ?_⟩
  rw [cond_admitted, fallDown_cond]
  exact linkDownCond_congr (by rw [same.1]) (by rw [same.1])

theorem exec_linkDown_not_due {s : State} {p : Port} (notDue : linkDownDue s p = false) :
    exec (.linkDown p) s = .next s := congrArg Host.Outcome.next (if_neg (Bool.eq_false_iff.1 notDue))

/-- Settles O8: the port and its timer decide, by `linkDownDue`. -/
theorem linkFallsDown : Obligations.LinkFallsDown := by
  intro s settled
  refine ⟨fun up ran => ?_, fun up ran => ?_, fun h => ?_, fun h => ?_⟩
  · exact exec_linkDown_due (p := .field) settled (Bool.and_eq_true_iff.2 ⟨up, decide_eq_true ran⟩)
  · exact exec_linkDown_due (p := .cab) settled (Bool.and_eq_true_iff.2 ⟨up, decide_eq_true ran⟩)
  · exact exec_linkDown_not_due (Bool.and_eq_false_iff.2 (h.imp id fun early => decide_eq_false (Nat.not_le.2 early)))
  · exact exec_linkDown_not_due (Bool.and_eq_false_iff.2 (h.imp id fun early => decide_eq_false (Nat.not_le.2 early)))

/-! ## One frame in a run of bytes (R1, R9) -/

theorem wordBytes_length (w : Word) : (wordBytes w).length = 2 := rfl

theorem frameBytes_cons (f : Frame) : ∃ rest, frameBytes f = byte0 f :: rest := ⟨_, rfl⟩

theorem frameBytes_length (f : Frame) : (frameBytes f).length = 5 + 2 * f.values.length := by
  rw [frameBytes, bodyBytes]
  simp only [List.length_append, List.length_cons, flatMap_wordBytes_length, wordBytes_length]
  omega

theorem expectedBytes_byte0 {f : Frame} (few : f.values.length ≤ 15) :
    expectedBytes (byte0 f) = 5 + 2 * f.values.length := by
  rw [expectedBytes, byte0, byte0_count, count_of_length few]

/-- A run of bytes that ends with its first frame's last expected byte, or before, is one frame. -/
theorem splitRun_single {b : Byte} {bs : List Byte} (h : (b :: bs).length ≤ expectedBytes b) :
    splitRun (b :: bs).length (b :: bs) = [b :: bs] := by
  show (b :: bs).take (expectedBytes b) :: splitRun bs.length ((b :: bs).drop (expectedBytes b)) = _
  rw [List.take_of_length_le h, List.drop_of_length_le h]
  cases bs.length <;> rfl

theorem arriveRun_single {p : Port} {b : Byte} {bs : List Byte} (h : (b :: bs).length ≤ expectedBytes b) (s : State) :
    arriveRun p (b :: bs) s = arrive p s (b :: bs) := by
  rw [arriveRun, splitRun_single h]
  rfl

theorem parseFrame_short {b : Byte} {bs : List Byte} (h : (b :: bs).length < expectedBytes b) :
    parseFrame (b :: bs) = none := by
  unfold parseFrame
  split
  · next b0 b1 b2 rest e =>
    obtain ⟨rfl, rfl⟩ := List.cons.inj e
    refine if_neg fun all => ?_
    have len := all.1
    simp only [List.length_cons, expectedBytes] at h
    omega
  · rfl

theorem arriveRun_frame {f : Frame} (few : f.values.length ≤ 15) (p : Port) (s : State) :
    arriveRun p (frameBytes f) s = wellFormedFrame p f s := by
  obtain ⟨rest, bytes⟩ := frameBytes_cons f
  have len := frameBytes_length f
  have parsed := parseFrame_frameBytes f few
  rw [bytes] at *
  rw [arriveRun_single (by rw [len, expectedBytes_byte0 few]), arrive, parsed]

theorem arriveRun_failed {p : Port} {bytes : List Byte} (one : isShortFrame bytes = true ∨ isWholeFrame bytes = true)
    (failed : parseFrame bytes = none) (s : State) :
    arriveRun p bytes s = occurNat srcLineCheck (portNo p) s := by
  cases bytes with
  | nil => rcases one with h | h <;> cases h
  | cons b bs =>
    have fits : (b :: bs).length ≤ expectedBytes b := by
      rcases one with h | h
      · exact Nat.le_of_lt (of_decide_eq_true h)
      · exact (beq_iff_eq.1 h).le
    rw [arriveRun_single fits, arrive, failed]

/-! ## The end of a frame's step -/

/-- A write of a FIFO: it commutes with what occurrences and judging write, and leaves the record queue. -/
structure FifoWrite (g : LineState → LineState) : Prop where
  events : ∀ (x : LineState) d i,
    g { x with statusDue := d, injections := i } = { g x with statusDue := d, injections := i }
  judged : ∀ (x : LineState) l, g { x with judged := l } = { g x with judged := l }
  keeps : ∀ x, (g x).statusDue = x.statusDue ∧ (g x).injections = x.injections ∧ (g x).mode = x.mode ∧
    (g x).judged = x.judged ∧ (g x).records = x.records

theorem EventOnly.fifoWrite {s t : State} {g : LineState → LineState} (h : EventOnly s t) (w : FifoWrite g) :
    EventOnly (s.setLine (g s.line)) (t.setLine (g t.line)) :=
  { h with
    line := by
      show g t.line = _
      rw [h.line, w.events]
      simp only [State.setLine_line, w.keeps]
    size := fun k => by
      simp only [State.setLine_line, w.keeps] at *
      exact h.size k
    quiet := fun k => by
      simp only [State.setLine_line, w.keeps] at *
      exact h.quiet k }

/-- The end of a frame's step that leads from `g`, written over the state before, by the event unit's share: EVENT and
STATUS records enter, and what had been judged before the step stands again (R23). -/
theorem admittedJudged_eventOnly {s g v : State} (settled : Settled s) (judged : g.line.judged = s.line.judged)
    (offers : SameOffers s g) (records : g.line.records = s.line.records)
    (h : EventOnly (g.setLine { g.line with judged := v.line.judged }) v) : SameButRecords g (admittedJudged s v) := by
  have back : EventOnly g (v.setLine { v.line with judged := s.line.judged }) := by
    have e := h.setJudged s.line.judged
    rw [← judged] at *
    exact e
  have all : SameOffers s v := offers.trans (.ofUnits h.rod h.bill h.lag)
  exact back.sameRecords.trans (admittedJudged_sameRecords settled all (h.records.trans records))

/-! ## A frame that fails the check (R9) -/

/-- One frame that fails the check: nothing but the event unit's share and the records it brings changes (R9). -/
theorem failed_dropped {s : State} {p : Port} {bytes : List Byte} (settled : Settled s)
    (one : isShortFrame bytes = true ∨ isWholeFrame bytes = true) (failed : parseFrame bytes = none) :
    SameButRecords s (admittedJudged s (arriveRun p bytes (beginJudging s))) ∧
      Occurred srcLineCheck (BitVec.ofNat 32 (portNo p)) true s
        (admittedJudged s (arriveRun p bytes (beginJudging s))) := by
  rw [arriveRun_failed one failed]
  have unit : EventOnly (beginJudging s) (occurNat srcLineCheck (portNo p) (beginJudging s)) := occurNat_eventOnly _ _ _
  have occurred : Occurred srcLineCheck (BitVec.ofNat 32 (portNo p)) true s _ :=
    occurred_occurNat (u := beginJudging s) (portNo p) (by decide) (SameAccount.refl _ s) rfl
  have judged : (occurNat srcLineCheck (portNo p) (beginJudging s)).line.judged = waiting s := by rw [unit.line]; rfl
  refine ⟨admittedJudged_eventOnly settled rfl (SameOffers.refl s) rfl (judged.symm ▸ unit),
    occurred.admittedJudged (by decide) (by decide) ?_ s⟩
  rw [unit.records]
  exact List.prefix_refl _

/-- Settles O4: both ways the run of bytes is one frame that fails the check, and LINE_CHECK occurs. -/
theorem failedCheckIsDropped : Obligations.FailedCheckIsDropped := by
  intro p bytes s settled
  have short_fails (short : isShortFrame bytes = true) : parseFrame bytes = none := by
    cases bytes with
    | nil => rfl
    | cons b bs => exact parseFrame_short (of_decide_eq_true short)
  cases p with
  | field =>
    exact ⟨fun short => ⟨_, rfl, failed_dropped (p := .field) settled (.inl short) (short_fails short)⟩,
      fun whole failed => ⟨_, rfl, failed_dropped (p := .field) settled (.inr whole) failed⟩⟩
  | cab =>
    exact ⟨fun short => ⟨_, rfl, failed_dropped (p := .cab) settled (.inl short) (short_fails short)⟩,
      fun whole failed => ⟨_, rfl, failed_dropped (p := .cab) settled (.inr whole) failed⟩⟩

/-! ## A well-formed frame: the link and the disposal (R2, R10 to R12, R20) -/

/-- The state in which a port has become UP and its timer has restarted, as a frame's step begins (R2). -/
def upped (p : Port) (s : State) : State := setLink p { up := true, everUp := true, timerStart := s.now } s

theorem linkFrame_eventOnly (p : Port) (s : State) : EventOnly (upped p s) (linkFrame p s) := report_eventOnly _ _ _

theorem linkFrame_sameAccount {src : Source} (apart : src ≠ srcPumpClamp) (p : Port) (s : State) :
    SameAccount src s (linkFrame p s) :=
  have same : SameAccount src s (upped p s) := .of_eq (by rw [upped, setLink_event])
  same.trans (report_sameAccount apart _ _ _)

theorem linkFrame_clock (p : Port) (s : State) : (linkFrame p s).depth.jobClock = s.depth.jobClock := by
  rw [(linkFrame_eventOnly p s).depth, upped, setLink_depth]

section
variable {s : State} {f : Frame}

/-- The line interface with a port's link UP from now (R2). -/
def lineUp (p : Port) (s : State) : LineState :=
  match p with
  | .field => { s.line with fieldLink := { up := true, everUp := true, timerStart := s.now } }
  | .cab => { s.line with cabLink := { up := true, everUp := true, timerStart := s.now } }

theorem linkFrame_judged (p : Port) : (linkFrame p (beginJudging s)).line.judged = waiting s := by
  rw [(linkFrame_eventOnly p (beginJudging s)).line]
  cases p <;> rfl

theorem upped_line (p : Port) : (upped p (beginJudging s)).line = { lineUp p s with judged := waiting s } := by
  cases p <;> rfl

theorem upped_eq (p : Port) :
    upped p (beginJudging s) = s.setLine { lineUp p s with judged := waiting s } := by
  cases p <;> rfl

theorem lineUp_records (p : Port) : (lineUp p s).records = s.line.records := by cases p <;> rfl

theorem lineUp_judged (p : Port) : (lineUp p s).judged = s.line.judged := by cases p <;> rfl

theorem linkFrame_line_records (p : Port) : (linkFrame p (beginJudging s)).line.records = s.line.records := by
  rw [(linkFrame_eventOnly p (beginJudging s)).records]
  cases p <;> rfl

/-- A frame that is written to a FIFO, or dropped: the end of its step leaves the link and the FIFO. -/
theorem disposed_sameRecords {g : LineState → LineState} (w : FifoWrite g) (settled : Settled s) (p : Port) :
    SameButRecords (s.setLine (g (lineUp p s)))
      (admittedJudged s ((linkFrame p (beginJudging s)).setLine (g (linkFrame p (beginJudging s)).line))) := by
  have unit := (linkFrame_eventOnly p (beginJudging s)).fifoWrite w
  have judged : ((linkFrame p (beginJudging s)).setLine (g (linkFrame p (beginJudging s)).line)).line.judged =
      waiting s :=
    (w.keeps _).2.2.2.1.trans (linkFrame_judged p)
  refine admittedJudged_eventOnly settled ((w.keeps _).2.2.2.1.trans (lineUp_judged p)) ⟨rfl, rfl, rfl, rfl⟩
    ((w.keeps _).2.2.2.2.trans (lineUp_records p)) ?_
  rw [upped_eq, State.setLine_line, w.judged] at unit
  rw [judged]
  exact unit

theorem fifoWrite_none : FifoWrite id := ⟨fun _ _ _ => rfl, fun _ _ => rfl, fun _ => ⟨rfl, rfl, rfl, rfl, rfl⟩⟩

theorem fifoWrite_forward (l : List Frame) : FifoWrite fun x => { x with forward := l } :=
  ⟨fun _ _ _ => rfl, fun _ _ => rfl, fun _ => ⟨rfl, rfl, rfl, rfl, rfl⟩⟩

theorem fifoWrite_downstream (l : List Frame) : FifoWrite fun x => { x with downstream := l } :=
  ⟨fun _ _ _ => rfl, fun _ _ => rfl, fun _ => ⟨rfl, rfl, rfl, rfl, rfl⟩⟩

theorem fifoWrite_requests (l : List Frame) : FifoWrite fun x => { x with requests := l } :=
  ⟨fun _ _ _ => rfl, fun _ _ => rfl, fun _ => ⟨rfl, rfl, rfl, rfl, rfl⟩⟩

theorem dropped_sameRecords (settled : Settled s) (p : Port) :
    SameButRecords (s.setLine (lineUp p s)) (admittedJudged s (linkFrame p (beginJudging s))) :=
  disposed_sameRecords fifoWrite_none settled p

/-- A frame that a full FIFO drops with an occurrence. -/
theorem overrun_sameRecords {src : Source} (settled : Settled s) (p : Port) (d : Nat) (apart : src ≠ srcPumpClamp)
    (notFull : src ≠ srcQueueFull) :
    let t := admittedJudged s (occurNat src d (linkFrame p (beginJudging s)))
    SameButRecords (s.setLine (lineUp p s)) t ∧ Occurred src (BitVec.ofNat 32 d) true s t := by
  have unit := (linkFrame_eventOnly p (beginJudging s)).trans (occurNat_eventOnly src d _)
  have judged : (occurNat src d (linkFrame p (beginJudging s))).line.judged = waiting s := by
    rw [(occurNat_eventOnly src d _).line]
    exact linkFrame_judged p
  have records : (occurNat src d (linkFrame p (beginJudging s))).line.records = s.line.records :=
    (occurNat_eventOnly src d _).records.trans (linkFrame_line_records p)
  have occurred : Occurred src (BitVec.ofNat 32 d) true s (occurNat src d (linkFrame p (beginJudging s))) :=
    occurred_occurNat d apart (linkFrame_sameAccount apart p (beginJudging s)) (linkFrame_clock p (beginJudging s))
  refine ⟨admittedJudged_eventOnly settled (lineUp_judged p) ⟨rfl, rfl, rfl, rfl⟩ (lineUp_records p) ?_,
    occurred.admittedJudged apart notFull (records ▸ List.prefix_refl _) s⟩
  rw [judged]
  rw [upped_eq] at unit
  exact unit

theorem exec_frameArrival {p : Port} {v : State} (few : f.values.length ≤ 15)
    (disposed : wellFormedFrame p f (beginJudging s) = v) :
    exec (.frameArrival p (frameBytes f)) s = .next (admittedJudged s v) :=
  congrArg (Host.Outcome.next ∘ admittedJudged s) ((arriveRun_frame few p _).trans disposed)

theorem linkFrame_line (p : Port) : ∃ d i, (linkFrame p (beginJudging s)).line =
    { lineUp p s with judged := waiting s, statusDue := d, injections := i } := by
  have line := (linkFrame_eventOnly p (beginJudging s)).line
  rw [upped_line] at line
  exact ⟨_, _, line⟩

theorem offerForward_room {t : State} (room : t.line.forward.length < 16) :
    offerForward f t = t.setLine { t.line with forward := t.line.forward ++ [f] } := if_pos room

theorem offerForward_full {t : State} (full : 16 ≤ t.line.forward.length) :
    offerForward f t = occurNat srcForwardOverrun 0 t := if_neg (Nat.not_lt.2 full)

theorem fieldDispose_bypass {t : State} (mode : t.line.mode = .bypass) : fieldDispose f t = t := by
  rw [fieldDispose, mode]

theorem fieldDispose_inLine {t : State} (mode : t.line.mode ≠ .bypass) :
    fieldDispose f t = offerForward f (if f.kind = kindSample then channelUnitTakes f t else t) := by
  unfold fieldDispose
  split
  · next h => exact absurd h mode
  · rfl

end

/-- Settles O5: the mode decides, then the room of the forward FIFO. -/
theorem fieldFrameIsForwarded : Obligations.FieldFrameIsForwarded := by
  intro s f settled few up
  obtain ⟨d, i, line⟩ := linkFrame_line (s := s) .field
  have forward : (linkFrame .field (beginJudging s)).line.forward = s.line.forward := by rw [line]; rfl
  have mode : (linkFrame .field (beginJudging s)).line.mode = s.line.mode := by rw [line]; rfl
  have offered (inLine : s.line.mode ≠ .bypass) (kind : f.kind ≠ 1) :
      wellFormedFrame .field f (beginJudging s) = offerForward f (linkFrame .field (beginJudging s)) := by
    exact (fieldDispose_inLine (mode.trans_ne inLine)).trans (congrArg (offerForward f) (if_neg kind))
  refine ⟨fun bypass => ⟨_, exec_frameArrival few (fieldDispose_bypass (mode.trans bypass)),
    dropped_sameRecords settled .field⟩, fun inLine kind room => ?_, fun inLine kind full => ?_⟩
  · have same := disposed_sameRecords (fifoWrite_forward (s.line.forward ++ [f])) settled .field
    refine ⟨_, exec_frameArrival few ((offered inLine kind).trans (offerForward_room (forward ▸ room))), ?_⟩
    rw [forward]
    exact same
  · obtain ⟨same, occurred⟩ := overrun_sameRecords (src := srcForwardOverrun) settled .field 0 (by decide) (by decide)
    exact ⟨_, exec_frameArrival few ((offered inLine kind).trans (offerForward_full (forward ▸ full))), same, occurred⟩

section
variable {f : Frame} {t : State}

theorem offerDownstream_room (room : t.line.downstream.length < 8) :
    offerDownstream f t = t.setLine { t.line with downstream := t.line.downstream ++ [f] } := if_pos room

theorem offerDownstream_full (full : 8 ≤ t.line.downstream.length) :
    offerDownstream f t = occurNat srcForwardOverrun 1 t := if_neg (Nat.not_lt.2 full)

theorem offerRequest_room (room : t.line.requests.length < 4) :
    offerRequest f t = t.setLine { t.line with requests := t.line.requests ++ [f] } := if_pos room

theorem offerRequest_full (full : 4 ≤ t.line.requests.length) :
    offerRequest f t = occurNat srcRequestOverrun f.tag.toNat t := if_neg (Nat.not_lt.2 full)

theorem cabDispose_request (kind : f.kind = 4) (node : f.node = 0) : cabDispose f t = offerRequest f t :=
  if_pos ⟨kind, node⟩

theorem cabDispose_bypass (other : ¬(f.kind = 4 ∧ f.node = 0)) (mode : t.line.mode = .bypass) : cabDispose f t = t := by
  rw [cabDispose, mode]
  exact if_neg other

theorem cabDispose_inLine (other : ¬(f.kind = 4 ∧ f.node = 0)) (mode : t.line.mode ≠ .bypass) :
    cabDispose f t = offerDownstream f t := by
  refine (if_neg other).trans ?_
  split
  · next h => exact absurd h mode
  · rfl

/-- The number of a TAG as a detail. -/
theorem ofNat_toNat_tag (tag : BitVec 8) : BitVec.ofNat 32 tag.toNat = tag.zeroExtend 32 := by
  simp [BitVec.ofNat_toNat, BitVec.zeroExtend]

end

/-- Settles O6: the frame's kind and node decide, then the mode, then the room of the FIFO. -/
theorem cabFrameIsDisposedOf : Obligations.CabFrameIsDisposedOf := by
  intro s f settled few up
  obtain ⟨d, i, line⟩ := linkFrame_line (s := s) .cab
  have requests : (linkFrame .cab (beginJudging s)).line.requests = s.line.requests := by rw [line]; rfl
  have downstream : (linkFrame .cab (beginJudging s)).line.downstream = s.line.downstream := by rw [line]; rfl
  have mode : (linkFrame .cab (beginJudging s)).line.mode = s.line.mode := by rw [line]; rfl
  refine ⟨fun kind node room => ?_, fun kind node full => ?_, fun other bypass => ?_, fun other inLine room => ?_,
    fun other inLine full => ?_⟩
  · have same := disposed_sameRecords (fifoWrite_requests (s.line.requests ++ [f])) settled .cab
    refine ⟨_, exec_frameArrival few ((cabDispose_request kind node).trans (offerRequest_room (requests ▸ room))), ?_⟩
    rw [requests]
    exact same
  · obtain ⟨same, occurred⟩ :=
      overrun_sameRecords (src := srcRequestOverrun) settled .cab f.tag.toNat (by decide) (by decide)
    rw [ofNat_toNat_tag] at occurred
    exact ⟨_, exec_frameArrival few ((cabDispose_request kind node).trans (offerRequest_full (requests ▸ full))), same,
      occurred⟩
  · exact ⟨_, exec_frameArrival few (cabDispose_bypass other (mode.trans bypass)), dropped_sameRecords settled .cab⟩
  · have same := disposed_sameRecords (fifoWrite_downstream (s.line.downstream ++ [f])) settled .cab
    refine ⟨_, exec_frameArrival few ((cabDispose_inLine other (mode.trans_ne inLine)).trans
      (offerDownstream_room (downstream ▸ room))), ?_⟩
    rw [downstream]
    exact same
  · obtain ⟨same, occurred⟩ := overrun_sameRecords (src := srcForwardOverrun) settled .cab 1 (by decide) (by decide)
    exact ⟨_, exec_frameArrival few ((cabDispose_inLine other (mode.trans_ne inLine)).trans
      (offerDownstream_full (downstream ▸ full))), same, occurred⟩

end Sys2Proof.Machine

/-! # What enters the record queue, and in which order (R22, R23) -/

namespace Sys2Proof.Machine

/-! ## Who waits -/

section
variable {s : State}

theorem not_waiting_rod : isWaiting s .rod = false ↔ s.rod.out = [] := by
  simp [isWaiting, offeredRecord]

theorem not_waiting_ticket : isWaiting s .ticket = false ↔ s.bill.outBuffer = none := by
  simp [isWaiting, offeredRecord]

theorem not_waiting_strata :
    isWaiting s .strata = false ↔ s.lag.hold = [] ∧ ∀ e ∈ s.lag.queue.head?, e.stage = .waiting := by
  rw [← Bool.not_eq_true, strata_waiting_iff]
  cases s.lag.queue.head? with
  | none => simp
  | some e => simp [← LagEntry.isWaiting_iff]

theorem not_waiting_event : isWaiting s .event = false ↔ ∀ src : Source, s.event.accounts[src].pending = false := by
  simp [isWaiting, offeredRecord, lowestPending]

theorem not_waiting_status : isWaiting s .status = false ↔ s.line.statusDue = none := by
  simp [isWaiting, offeredRecord]

theorem isWaiting_of_offered {p : Producer} {r : RecordBody} (h : offeredRecord s p = some r) :
    isWaiting s p = true := by
  rw [isWaiting, h]
  rfl

/-- The first that waits: none of those before it in the admission order does. -/
theorem waiting_head? {p : Producer} {before after : List Producer} (order : admissionOrder = before ++ p :: after)
    (none : ∀ q ∈ before, isWaiting s q = false) (own : isWaiting s p = true) : (waiting s).head? = some p := by
  have nil : before.filter (isWaiting s) = [] := List.filter_eq_nil_iff.2 fun q hq => by rw [none q hq]; decide
  rw [waiting, order, List.filter_append, nil, List.nil_append, List.filter_cons, if_pos own]
  rfl

theorem mem_waiting {p : Producer} : p ∈ waiting s ↔ isWaiting s p = true := by
  rw [waiting, List.mem_filter]
  exact and_iff_right (by cases p <;> decide)

/-- A producer that waits alone is the first that waits. -/
theorem waiting_head?_of_alone {p : Producer} (others : ∀ q, q ≠ p → isWaiting s q = false)
    (own : isWaiting s p = true) : (waiting s).head? = some p := by
  have only : ∀ q ∈ waiting s, q = p := fun q hq => by
    by_contra other
    rw [mem_waiting, others q other] at hq
    cases hq
  cases e : waiting s with
  | nil => exact absurd (mem_waiting.2 own) (by rw [e]; exact List.not_mem_nil)
  | cons q rest => exact congrArg some (only q (by rw [e]; exact List.mem_cons_self))

theorem waiting_eq_nil : waiting s = [] ↔ ∀ p, isWaiting s p = false := by
  simp only [List.eq_nil_iff_forall_not_mem, mem_waiting, Bool.not_eq_true]

end

/-! ## One round of an admission -/

section
variable {s : State} {judged : List Producer} {n : Nat} {p : Producer} {r : RecordBody}

theorem admissible_of_head? (first : (waiting s).head? = some p) (offer : offeredRecord s p = some r)
    (fit : r.frames.length ≤ recordRoom s) : admissible s = some (p, r) := by
  rw [admissible, firstOffer_eq, first, Option.bind_some, offer, Option.map_some]
  exact Option.filter_some_pos (decide_eq_true fit)

theorem admissible_of_large (first : (waiting s).head? = some p) (offer : offeredRecord s p = some r)
    (large : recordRoom s < r.frames.length) : admissible s = none := by
  rw [admissible, firstOffer_eq, first, Option.bind_some, offer, Option.map_some]
  exact Option.filter_some_neg (by simpa using large)

theorem admissible_of_none (none : waiting s = []) : admissible s = Option.none := by
  rw [admissible, firstOffer_eq, none]
  rfl

theorem admission_admit (can : admissible s = some (p, r)) :
    admission (n + 1) judged s = admission n (judged.erase p) (admitOne p r s) := by
  rw [admission, can]

theorem admission_judge (closed : admissible s = none) (next : unjudged judged s = some p) :
    admission (n + 1) judged s = admission n (p :: judged) (occurNat srcQueueFull p.code s) := by
  rw [admission, closed]
  dsimp only
  rw [next]

theorem admission_done (closed : admissible s = none) (none : unjudged judged s = Option.none) :
    admission n judged s = s := by
  cases n with
  | zero => rfl
  | succ n =>
    rw [admission, closed]
    dsimp only
    rw [none]

theorem unjudged_eq_none (h : ∀ q, isWaiting s q = true → q ∈ judged) : unjudged judged s = none := by
  rw [unjudged, List.find?_eq_none]
  intro q _ both
  obtain ⟨waits, new⟩ := Bool.and_eq_true_iff.1 both
  rw [List.contains_iff_mem.2 (h q waits)] at new
  cases new

theorem admission_of_none (none : waiting s = []) : admission n judged s = s :=
  admission_done (admissible_of_none none) (unjudged_eq_none fun q h => by
    rw [waiting_eq_nil.1 none q] at h
    cases h)

/-- Where nothing that waits can enter and all of it has been judged, an admission changes nothing. -/
theorem admission_of_settled (settled : Settled s) : admission n (waiting s) s = s :=
  admission_done settled (unjudged_eq_none fun _ => mem_waiting.2)

end

/-! ## A record that enters alone -/

/-- The frames of a record, as the statements write them (R4). -/
theorem recordFrames_eq (n : Nat) (r : RecordBody) : recordFrames n r = framesOf r.type n r.frames := by
  rw [recordFrames, framesOf, List.mapIdx_eq_zipIdx_map]
  rfl

theorem framesOf_length (type n : Nat) (frames : List (List Word)) : (framesOf type n frames).length = frames.length := by
  simp [framesOf]

theorem enterRecord_eq (r : RecordBody) (s : State) :
    enterRecord r s = s.setLine (lineAfterEntry r.type r.frames s.line) := by
  rw [enterRecord, recordFrames_eq, lineAfterEntry]
  simp only [List.length_append, framesOf_length]

theorem flushCompletion_offers (s : State) : SameOffers s (flushCompletion s) := by
  unfold flushCompletion
  split <;> exact ⟨rfl, rfl, rfl, rfl⟩

theorem flushCompletion_rod (s : State) : (flushCompletion s).rod = s.rod := by
  unfold flushCompletion
  split <;> rfl

theorem isWaiting_status_congr {s t : State} (h : t.line.statusDue = s.line.statusDue) :
    isWaiting t .status = isWaiting s .status := by
  simp [isWaiting, offeredRecord, h]

theorem isWaiting_event_congr {s t : State} (h : t.event = s.event) : isWaiting t .event = isWaiting s .event := by
  simp [isWaiting, offeredRecord, lowestPending, h]

theorem isWaiting_rod_congr {s t : State} (h : t.rod.out = s.rod.out) : isWaiting t .rod = isWaiting s .rod := by
  simp [isWaiting, offeredRecord, h]

theorem isWaiting_ticket_congr {s t : State} (h : t.bill.outBuffer = s.bill.outBuffer) :
    isWaiting t .ticket = isWaiting s .ticket := by
  simp [isWaiting, offeredRecord, h]

theorem isWaiting_strata_congr {s t : State} (hold : t.lag.hold = s.lag.hold) (queue : t.lag.queue = s.lag.queue) :
    isWaiting t .strata = isWaiting s .strata := by
  simp [isWaiting, offeredRecord, hold, queue]

/-! ### What leaves its producer changes nothing of what the others offer -/

section
variable {p : Producer} (r : RecordBody) (s : State)

theorem enterRecord_units : (enterRecord r s).rod = s.rod ∧ (enterRecord r s).bill = s.bill ∧
    (enterRecord r s).lag = s.lag ∧ (enterRecord r s).event = s.event ∧
    (enterRecord r s).line.statusDue = s.line.statusDue :=
  ⟨rfl, rfl, rfl, rfl, rfl⟩

theorem releaseEvent_units : (releaseOffered .event s).rod = s.rod ∧ (releaseOffered .event s).bill = s.bill ∧
    (releaseOffered .event s).lag = s.lag ∧ (releaseOffered .event s).line = s.line := by
  unfold releaseOffered
  dsimp only
  split <;> exact ⟨rfl, rfl, rfl, rfl⟩

/-- A STRATA record leaves the hold or the lag queue; the flush completion that may follow touches no other offer. -/
theorem releaseStrata_offers : (releaseOffered .strata s).rod = s.rod ∧
    (releaseOffered .strata s).bill.outBuffer = s.bill.outBuffer := by
  unfold releaseOffered
  dsimp only
  split <;> exact ⟨flushCompletion_rod _, (flushCompletion_offers _).2⟩

theorem releaseOffered_rod (other : p ≠ .rod) : (releaseOffered p s).rod = s.rod := by
  cases p with
  | rod => exact absurd rfl other
  | ticket => rfl
  | strata => exact (releaseStrata_offers s).1
  | event => exact (releaseEvent_units s).1
  | status => rfl

theorem releaseOffered_ticket (other : p ≠ .ticket) : (releaseOffered p s).bill.outBuffer = s.bill.outBuffer := by
  cases p with
  | rod => rfl
  | ticket => exact absurd rfl other
  | strata => exact (releaseStrata_offers s).2
  | event => exact congrArg BillState.outBuffer (releaseEvent_units s).2.1
  | status => rfl

theorem releaseOffered_lag (other : p ≠ .strata) : (releaseOffered p s).lag = s.lag := by
  cases p with
  | rod => rfl
  | ticket => rfl
  | strata => exact absurd rfl other
  | event => exact (releaseEvent_units s).2.2.1
  | status => rfl

theorem releaseOffered_event (other : p ≠ .event) : (releaseOffered p s).event = s.event := by
  cases p with
  | rod => rfl
  | ticket => rfl
  | strata => exact releaseStrata_event s
  | event => exact absurd rfl other
  | status => rfl

theorem releaseOffered_status (other : p ≠ .status) : (releaseOffered p s).line = s.line := by
  cases p with
  | rod => rfl
  | ticket => rfl
  | strata => exact releaseStrata_line s
  | event => exact (releaseEvent_units s).2.2.2
  | status => exact absurd rfl other

theorem admitOne_other {q : Producer} (other : q ≠ p) : isWaiting (admitOne p r s) q = isWaiting s q := by
  obtain ⟨rod, bill, lag, event, status⟩ := enterRecord_units r s
  unfold admitOne
  cases q with
  | rod => exact isWaiting_rod_congr (by rw [releaseOffered_rod _ other.symm, rod])
  | ticket => exact isWaiting_ticket_congr (by rw [releaseOffered_ticket _ other.symm, bill])
  | strata =>
    have kept := (releaseOffered_lag (enterRecord r s) other.symm).trans lag
    exact isWaiting_strata_congr (congrArg LagState.hold kept) (congrArg LagState.queue kept)
  | event => exact isWaiting_event_congr (by rw [releaseOffered_event _ other.symm, event])
  | status => exact isWaiting_status_congr (by rw [releaseOffered_status _ other.symm, status])

end

section
variable {s : State} {judged : List Producer} {n : Nat} {p : Producer} {r : RecordBody}

/-- A record that waits alone and fits enters, and the admission is over where its producer then has no other. -/
theorem admission_alone (own : offeredRecord s p = some r) (others : ∀ q, q ≠ p → isWaiting s q = false)
    (fit : r.frames.length ≤ recordRoom s) (last : isWaiting (admitOne p r s) p = false) :
    admission (n + 1) judged s = admitOne p r s := by
  have first := waiting_head?_of_alone others (isWaiting_of_offered own)
  have none : waiting (admitOne p r s) = [] := waiting_eq_nil.2 fun q => by
    by_cases e : q = p
    · rw [e, last]
    · rw [admitOne_other r s e, others q e]
  rw [admission_admit (admissible_of_head? first own fit), admission_of_none none]

/-- The same of the line interface's admission by itself (R23). -/
theorem exec_recordAdmission_alone (own : offeredRecord s p = some r) (others : ∀ q, q ≠ p → isWaiting s q = false)
    (fit : r.frames.length ≤ recordRoom s) (last : isWaiting (admitOne p r s) p = false) :
    exec .recordAdmission s = .next (admitOne p r s) :=
  congrArg Host.Outcome.next (admission_alone own others fit last)

end

end Sys2Proof.Machine

/-! # A record that waits alone, of each producer (R22, R23, R170) -/

namespace Sys2Proof.Machine

/-! ## The lowest pending source (R170) -/

section
variable {s : State} {src : Source}

theorem lowestPending_eq (pending : s.event.accounts[src].pending = true)
    (lower : ∀ q : Source, q < src → s.event.accounts[q].pending = false) : lowestPending s = some src := by
  rw [lowestPending, List.find?_eq_some_iff_getElem]
  refine ⟨pending, src.val, by simp, by simp, fun j hj => ?_⟩
  have small : j < 64 := hj.trans src.isLt
  simpa using lower ⟨j, small⟩ hj

/-- The EVENT record of a source, its words written out (R5). -/
theorem eventRecord_eq (s : State) (src : Source) :
    eventRecord s src = { type := 4, frames := [[
      BitVec.ofNat 16 (src.val * 256 + ((routeOf s src).map (·.val)).getD 255),
      BitVec.ofNat 16 (s.event.accounts[src].count * 256 + if s.event.accounts[src].applied then 1 else 0),
      BitVec.ofNat 16 (s.event.accounts[src].firstTime / 65536), BitVec.ofNat 16 s.event.accounts[src].firstTime,
      s.event.accounts[src].detail.extractLsb' 16 16, s.event.accounts[src].detail.extractLsb' 0 16,
      (if isConditionSource src then (if s.event.accounts[src].cond then 1 else 0) else 2),
      BitVec.ofNat 16 (((routeOf s src).map fun j => levelIn (activePages s tRoute) j.val).getD 255)]] } := by
  have code : w16 (conditionCode s src) =
      if isConditionSource src then (if s.event.accounts[src].cond then 1 else 0) else 2 := by
    unfold conditionCode cond
    split
    · split <;> simp_all [w16, bit]
    · rfl
  have applied : bit s.event.accounts[src].applied = if s.event.accounts[src].applied then 1 else 0 := by
    unfold bit
    rfl
  rw [eventRecord, code, applied]
  rfl

end

/-! ## An admission with no place left -/

/-- With no place left an admission only judges: the queue stays, what is pending stays pending, and of the accounts
apart only that of RECORD_QUEUE_FULL changes (R23). -/
theorem admission_full (n : Nat) : ∀ judged s, HasFrames s → recordRoom s = 0 →
    (admission n judged s).line.records = s.line.records ∧ KeepsPending s (admission n judged s) ∧
    ∀ src, src ≠ srcPumpClamp → src ≠ srcQueueFull →
      (admission n judged s).event.accounts[src] = s.event.accounts[src] := by
  induction n with
  | zero => exact fun _ _ _ _ => ⟨rfl, fun _ h => h, fun _ _ _ => rfl⟩
  | succ n ih =>
    intro judged s frames full
    cases can : admissible s with
    | some o =>
      have fit := admissible_fits (p := o.1) (r := o.2) can
      have some := frames.offered (offered_of_admissible (p := o.1) (r := o.2) can)
      omega
    | none =>
      cases next : unjudged judged s with
      | none =>
        rw [admission_done can next]
        exact ⟨rfl, fun _ h => h, fun _ _ _ => rfl⟩
      | some p =>
        have unit := occurNat_eventOnly srcQueueFull p.code s
        have room : recordRoom (occurNat srcQueueFull p.code s) = 0 := by
          rw [recordRoom, unit.line]
          exact full
        obtain ⟨records, pending, account⟩ := ih (p :: judged) _
          (frames.admits (unit.toAdmits fun q => raise_cond _ s q)) room
        rw [admission_judge can next]
        refine ⟨records.trans (by rw [unit.line]), (raise_keepsPending _ s).trans pending, fun src clamp other => ?_⟩
        exact (account src clamp other).trans ((raise_account _ s src clamp).trans (if_neg other))

/-! ## Each producer's record that waits alone -/

section
variable {s : State}

theorem others_rod (ticket : s.bill.outBuffer = none)
    (strata : s.lag.hold = [] ∧ ∀ e ∈ s.lag.queue.head?, e.stage = .waiting)
    (event : ∀ src : Source, s.event.accounts[src].pending = false) (status : s.line.statusDue = none) :
    ∀ q, q ≠ .rod → isWaiting s q = false
  | .rod, other => absurd rfl other
  | .ticket, _ => not_waiting_ticket.2 ticket
  | .strata, _ => not_waiting_strata.2 strata
  | .event, _ => not_waiting_event.2 event
  | .status, _ => not_waiting_status.2 status

theorem others_ticket (rod : s.rod.out = [])
    (strata : s.lag.hold = [] ∧ ∀ e ∈ s.lag.queue.head?, e.stage = .waiting)
    (event : ∀ src : Source, s.event.accounts[src].pending = false) (status : s.line.statusDue = none) :
    ∀ q, q ≠ .ticket → isWaiting s q = false
  | .rod, _ => not_waiting_rod.2 rod
  | .ticket, other => absurd rfl other
  | .strata, _ => not_waiting_strata.2 strata
  | .event, _ => not_waiting_event.2 event
  | .status, _ => not_waiting_status.2 status

theorem others_strata (rod : s.rod.out = []) (ticket : s.bill.outBuffer = none)
    (event : ∀ src : Source, s.event.accounts[src].pending = false) (status : s.line.statusDue = none) :
    ∀ q, q ≠ .strata → isWaiting s q = false
  | .rod, _ => not_waiting_rod.2 rod
  | .ticket, _ => not_waiting_ticket.2 ticket
  | .strata, other => absurd rfl other
  | .event, _ => not_waiting_event.2 event
  | .status, _ => not_waiting_status.2 status

theorem others_event (rod : s.rod.out = []) (ticket : s.bill.outBuffer = none)
    (strata : s.lag.hold = [] ∧ ∀ e ∈ s.lag.queue.head?, e.stage = .waiting) (status : s.line.statusDue = none) :
    ∀ q, q ≠ .event → isWaiting s q = false
  | .rod, _ => not_waiting_rod.2 rod
  | .ticket, _ => not_waiting_ticket.2 ticket
  | .strata, _ => not_waiting_strata.2 strata
  | .event, other => absurd rfl other
  | .status, _ => not_waiting_status.2 status

theorem others_status (rod : s.rod.out = []) (ticket : s.bill.outBuffer = none)
    (strata : s.lag.hold = [] ∧ ∀ e ∈ s.lag.queue.head?, e.stage = .waiting)
    (event : ∀ src : Source, s.event.accounts[src].pending = false) :
    ∀ q, q ≠ .status → isWaiting s q = false
  | .rod, _ => not_waiting_rod.2 rod
  | .ticket, _ => not_waiting_ticket.2 ticket
  | .strata, _ => not_waiting_strata.2 strata
  | .event, _ => not_waiting_event.2 event
  | .status, other => absurd rfl other

theorem room_of_le {n : Nat} (h : s.line.records.length + n ≤ 64) : n ≤ recordRoom s := by
  unfold recordRoom
  omega

/-! ### ROD and TICKET -/

theorem admitOne_rod {r : RecordBody} (out : s.rod.out = [r]) :
    admitOne .rod r s = { s with line := lineAfterEntry r.type r.frames s.line, rod := { s.rod with out := [] } } := by
  rw [admitOne, enterRecord_eq]
  show { s with line := _, rod := { s.rod with out := s.rod.out.drop 1 } } = _
  rw [out]
  rfl

theorem admitOne_ticket (r : RecordBody) :
    admitOne .ticket r s =
      { s with line := lineAfterEntry r.type r.frames s.line, bill := { s.bill with outBuffer := none } } := by
  rw [admitOne, enterRecord_eq]
  rfl

/-! ### STRATA, with the flush completion that may follow -/

/-- The lag unit has told of its completion as the last record of a flush has gone (R126). -/
theorem flushCompletion_eq : flushCompletion s =
    { s with
      lag := { s.lag with
        flushWatch := if s.lag.flushWatch = true ∧ s.lag.queue = [] ∧ s.lag.hold = [] then false else s.lag.flushWatch }
      bill := { s.bill with
        ending := if s.lag.flushWatch = true ∧ s.lag.queue = [] ∧ s.lag.hold = [] then
          s.bill.ending.map fun e => { e with lagDone := true } else s.bill.ending } } := by
  unfold flushCompletion
  split
  · rfl
  · rfl

theorem admitOne_hold {r : Strata} (body : RecordBody) (hold : s.lag.hold = [r]) :
    admitOne .strata body s = { s with
      line := lineAfterEntry body.type body.frames s.line
      lag := { s.lag with
        hold := [], flushWatch := if s.lag.flushWatch = true ∧ s.lag.queue = [] then false else s.lag.flushWatch }
      bill := { s.bill with
        ending := if s.lag.flushWatch = true ∧ s.lag.queue = [] then
          s.bill.ending.map fun e => { e with lagDone := true } else s.bill.ending } } := by
  have release (u : State) (h : u.lag.hold = [r]) : releaseOffered .strata u =
      flushCompletion (u.setLag { u.lag with hold := [] }) := by
    simp only [releaseOffered, h]
  rw [admitOne, enterRecord_eq, release (s.setLine (lineAfterEntry body.type body.frames s.line)) hold, flushCompletion_eq]
  simp only [State.setLag_lag, and_true]
  rfl

theorem admitOne_queue {e : LagEntry} {rest : List LagEntry} (body : RecordBody) (hold : s.lag.hold = [])
    (queue : s.lag.queue = e :: rest) :
    admitOne .strata body s = { s with
      line := lineAfterEntry body.type body.frames s.line
      lag := { s.lag with
        queue := rest, flushWatch := if s.lag.flushWatch = true ∧ rest = [] then false else s.lag.flushWatch }
      bill := { s.bill with
        ending := if s.lag.flushWatch = true ∧ rest = [] then
          s.bill.ending.map fun e => { e with lagDone := true } else s.bill.ending } } := by
  have release (u : State) (h : u.lag.hold = []) (q : u.lag.queue = e :: rest) : releaseOffered .strata u =
      flushCompletion (u.setLag { u.lag with queue := rest }) := by
    simp only [releaseOffered, h, q, List.drop_one, List.tail_cons]
  rw [admitOne, enterRecord_eq, release (s.setLine (lineAfterEntry body.type body.frames s.line)) hold queue, flushCompletion_eq]
  simp only [State.setLag_lag, State.setLine_lag, hold, and_true]
  rfl

/-! ### EVENT and STATUS -/

theorem admitOne_event_eq {src : Source} (pending : s.event.accounts[src].pending = true)
    (lower : ∀ q : Source, q < src → s.event.accounts[q].pending = false) (body : RecordBody) :
    admitOne .event body s = { s with
      line := lineAfterEntry body.type body.frames s.line
      event := { s.event with
        accounts := s.event.accounts.set src { s.event.accounts[src] with pending := false, count := 0 } } } := by
  rw [admitOne_event body (lowestPending_eq pending lower), enterRecord_eq]
  rfl

theorem admitOne_status (body : RecordBody) :
    admitOne .status body s =
      { s with line := { lineAfterEntry body.type body.frames s.line with statusDue := none } } := by
  rw [admitOne, enterRecord_eq]
  rfl

/-! ## What the line interface's admission does -/

theorem exec_admission_rod {vs : List Word} (out : s.rod.out = [{ type := 1, frames := [vs] }])
    (ticket : s.bill.outBuffer = none) (strata : s.lag.hold = [] ∧ ∀ e ∈ s.lag.queue.head?, e.stage = .waiting)
    (event : ∀ src : Source, s.event.accounts[src].pending = false) (status : s.line.statusDue = none)
    (fit : s.line.records.length + 1 ≤ 64) :
    exec .recordAdmission s =
      .next { s with line := lineAfterEntry 1 [vs] s.line, rod := { s.rod with out := [] } } := by
  have state := admitOne_rod out
  have own : offeredRecord s .rod = some { type := 1, frames := [vs] } := congrArg List.head? out
  rw [← state]
  exact exec_recordAdmission_alone own (others_rod ticket strata event status) (room_of_le fit)
    (not_waiting_rod.2 (by rw [state]))

theorem exec_admission_ticket {frames : List (List Word)} (rod : s.rod.out = [])
    (ticket : s.bill.outBuffer = some { type := 3, frames := frames })
    (strata : s.lag.hold = [] ∧ ∀ e ∈ s.lag.queue.head?, e.stage = .waiting)
    (event : ∀ src : Source, s.event.accounts[src].pending = false) (status : s.line.statusDue = none)
    (fit : s.line.records.length + frames.length ≤ 64) :
    exec .recordAdmission s =
      .next { s with line := lineAfterEntry 3 frames s.line, bill := { s.bill with outBuffer := none } } := by
  have state := admitOne_ticket (s := s) { type := 3, frames := frames }
  rw [← state]
  exact exec_recordAdmission_alone (p := .ticket) ticket (others_ticket rod strata event status) (room_of_le fit)
    (not_waiting_ticket.2 (by rw [state]))

theorem exec_admission_hold {r : Strata} (rod : s.rod.out = []) (ticket : s.bill.outBuffer = none)
    (hold : s.lag.hold = [r]) (queue : ∀ e ∈ s.lag.queue.head?, e.stage = .waiting)
    (event : ∀ src : Source, s.event.accounts[src].pending = false) (status : s.line.statusDue = none)
    (fit : s.line.records.length + 3 ≤ 64) :
    exec .recordAdmission s = .next (admitOne .strata (strataRecord r unlaggedPart) s) := by
  have own : offeredRecord s .strata = some (strataRecord r unlaggedPart) := by
    simp only [offeredRecord, hold]
  exact exec_recordAdmission_alone own (others_strata rod ticket event status) (room_of_le fit)
    (not_waiting_strata.2 (by rw [admitOne_hold _ hold]; exact ⟨rfl, queue⟩))

theorem exec_admission_queue {e : LagEntry} {rest : List LagEntry} (rod : s.rod.out = [])
    (ticket : s.bill.outBuffer = none) (hold : s.lag.hold = []) (queue : s.lag.queue = e :: rest)
    (leaves : e.stage ≠ .waiting) (behind : ∀ x ∈ rest.head?, x.stage = .waiting)
    (event : ∀ src : Source, s.event.accounts[src].pending = false) (status : s.line.statusDue = none)
    (fit : s.line.records.length + 3 ≤ 64) :
    exec .recordAdmission s = .next (admitOne .strata (strataRecord e.strata (lagPartOf e.stage)) s) := by
  have own : offeredRecord s .strata = some (strataRecord e.strata (lagPartOf e.stage)) := by
    simp only [offeredRecord, hold, queue]
    exact if_neg (mt (LagEntry.isWaiting_iff e).1 leaves)
  exact exec_recordAdmission_alone own (others_strata rod ticket event status) (room_of_le fit)
    (not_waiting_strata.2 (by rw [admitOne_queue _ hold queue]; exact ⟨hold, behind⟩))

theorem exec_admission_event {src : Source} (rod : s.rod.out = []) (ticket : s.bill.outBuffer = none)
    (strata : s.lag.hold = [] ∧ ∀ e ∈ s.lag.queue.head?, e.stage = .waiting)
    (pending : s.event.accounts[src].pending = true)
    (others : ∀ other : Source, other ≠ src → s.event.accounts[other].pending = false)
    (status : s.line.statusDue = none) (fit : s.line.records.length + 1 ≤ 64) :
    exec .recordAdmission s = .next (admitOne .event (eventRecord s src) s) := by
  have lower : ∀ q : Source, q < src → s.event.accounts[q].pending = false := fun q h => others q h.ne
  have own : offeredRecord s .event = some (eventRecord s src) := by
    rw [offeredRecord, lowestPending_eq pending lower, Option.map_some]
  refine exec_recordAdmission_alone own (others_event rod ticket strata status) (room_of_le fit)
    (not_waiting_event.2 fun q => ?_)
  rw [admitOne_event (eventRecord s src) (lowestPending_eq pending lower), setAccount_account]
  split
  · rfl
  · next other => exact others q other

theorem exec_admission_status {cause : StatusCause} (rod : s.rod.out = []) (ticket : s.bill.outBuffer = none)
    (strata : s.lag.hold = [] ∧ ∀ e ∈ s.lag.queue.head?, e.stage = .waiting)
    (event : ∀ src : Source, s.event.accounts[src].pending = false) (due : s.line.statusDue = some cause)
    (fit : s.line.records.length + 3 ≤ 64) :
    exec .recordAdmission s = .next (admitOne .status (statusRecord s cause) s) := by
  have own : offeredRecord s .status = some (statusRecord s cause) := by
    rw [offeredRecord, due, Option.map_some]
  exact exec_recordAdmission_alone own (others_status rod ticket strata event) (room_of_le fit)
    (not_waiting_status.2 (by rw [admitOne_status]))

theorem occurNat_pending {src : Source} (d : Nat) (s : State) (apart : Apart src) :
    (occurNat src d s).event.accounts[src].pending = true := by
  rw [occurNat, occur, raise_account _ s src apart, if_pos rfl]
  rfl

/-- With no place left, and nothing offered but EVENT or STATUS records, an EVENT record that has begun to wait makes
RECORD_QUEUE_FULL occur (R23). -/
theorem admission_full_event {n : Nat} {judged : List Producer} (frames : HasFrames s) (full : recordRoom s = 0)
    (rod : isWaiting s .rod = false) (ticket : isWaiting s .ticket = false) (strata : isWaiting s .strata = false)
    (event : isWaiting s .event = true) (new : Producer.event ∉ judged) :
    (admission (n + 1) judged s).line.records = s.line.records ∧ KeepsPending s (admission (n + 1) judged s) ∧
    (admission (n + 1) judged s).event.accounts[srcQueueFull].pending = true ∧
    ∀ src, src ≠ srcPumpClamp → src ≠ srcQueueFull →
      (admission (n + 1) judged s).event.accounts[src] = s.event.accounts[src] := by
  have closed : admissible s = none := by
    cases can : admissible s with
    | none => rfl
    | some o =>
      have fits := admissible_fits (p := o.1) (r := o.2) can
      have some := frames.offered (offered_of_admissible (p := o.1) (r := o.2) can)
      omega
  have next : unjudged judged s = some .event := by
    simp [unjudged, admissionOrder, rod, ticket, strata, event, new]
  obtain ⟨records, pending, account⟩ := admission_full (n + 1) judged s frames full
  have unit := occurNat_eventOnly srcQueueFull Producer.event.code s
  have room : recordRoom (occurNat srcQueueFull Producer.event.code s) = 0 := by
    rw [recordRoom, unit.line]
    exact full
  obtain ⟨-, stays, -⟩ := admission_full n (.event :: judged) _
    (frames.admits (unit.toAdmits fun q => raise_cond _ s q)) room
  refine ⟨records, pending, ?_, account⟩
  rw [admission_judge closed next]
  exact stays srcQueueFull (occurNat_pending _ s (by unfold Apart; decide))

/-- With one place left the EVENT record of the lowest pending source takes it, and the next one waits with
RECORD_QUEUE_FULL (R23, R170). -/
theorem exec_admission_event_last {src other : Source} (rod : s.rod.out = []) (ticket : s.bill.outBuffer = none)
    (strata : s.lag.hold = [] ∧ ∀ e ∈ s.lag.queue.head?, e.stage = .waiting)
    (pending : s.event.accounts[src].pending = true)
    (lower : ∀ q : Source, q < src → s.event.accounts[q].pending = false) (above : src < other)
    (waits : s.event.accounts[other].pending = true) (last : s.line.records.length = 63) :
    ∃ t, exec .recordAdmission s = .next t ∧
      t.line.records = s.line.records ++ framesOf 4 s.line.serial (eventRecord s src).frames ∧
      t.event.accounts[other].pending = true ∧ t.event.accounts[srcQueueFull].pending = true ∧
      (src ≠ srcPumpClamp → src ≠ srcQueueFull →
        t.event.accounts[src] = { s.event.accounts[src] with pending := false, count := 0 }) := by
  have noRod := not_waiting_rod.2 rod
  have noTicket := not_waiting_ticket.2 ticket
  have noStrata := not_waiting_strata.2 strata
  have lowest := lowestPending_eq pending lower
  have own : offeredRecord s .event = some (eventRecord s src) := by
    rw [offeredRecord, lowest, Option.map_some]
  have first : (waiting s).head? = some .event :=
    waiting_head? (before := [.rod, .ticket, .strata]) rfl
      (by simp only [List.forall_mem_cons, noRod, noTicket, noStrata]; simp) (isWaiting_of_offered own)
  have fit : (eventRecord s src).frames.length ≤ recordRoom s := room_of_le (by rw [last]; exact Nat.le_refl 64)
  have frames : HasFrames s := by
    rw [HasFrames, rod, ticket]
    exact ⟨fun _ h => absurd h List.not_mem_nil, fun _ h => nomatch h⟩
  obtain ⟨t1, entered⟩ : ∃ t1, t1 = admitOne .event (eventRecord s src) s := ⟨_, rfl⟩
  have state := entered.trans (admitOne_event (eventRecord s src) lowest)
  have account (q : Source) : t1.event.accounts[q] =
      if q = src then s.event.accounts[src].entered else s.event.accounts[q] := by
    rw [state]
    exact setAccount_account src _ _ q
  have records : t1.line.records = s.line.records ++ framesOf 4 s.line.serial (eventRecord s src).frames := by
    rw [state]
    exact congrArg (s.line.records ++ ·) (recordFrames_eq s.line.serial (eventRecord s src))
  have full : recordRoom t1 = 0 := by
    rw [entered, admitOne_room, recordRoom, last]
    rfl
  have stillWaits : t1.event.accounts[other].pending = true := by
    rw [account, if_neg above.ne']
    exact waits
  have event : isWaiting t1 .event = true := by
    rw [← Bool.not_eq_false, not_waiting_event]
    intro all
    rw [all other] at stillWaits
    cases stillWaits
  have keeps (q : Producer) (h : q ≠ .event) : isWaiting t1 q = isWaiting s q := entered ▸ admitOne_other _ s h
  obtain ⟨queue, stays, signalled, kept⟩ := admission_full_event (n := 131) (judged := (waiting s).erase .event)
    (entered ▸ frames.admits (admitOne_admits .event _ s fit)) full
    ((keeps .rod (by decide)).trans noRod) ((keeps .ticket (by decide)).trans noTicket)
    ((keeps .strata (by decide)).trans noStrata) event (waiting_nodup s).not_mem_erase
  have run : exec .recordAdmission s = .next (admission (131 + 1) ((waiting s).erase .event) t1) := by
    rw [entered]
    exact congrArg Host.Outcome.next (admission_admit (admissible_of_head? first own fit))
  refine ⟨_, run, queue.trans records, stays other stillWaits, signalled, fun clamp apart => ?_⟩
  rw [kept src clamp apart, account, if_pos rfl]
  rfl

/-- Settles O14. -/
theorem recordsEnterInOrder : Obligations.RecordsEnterInOrder := by
  unfold Obligations.RecordsEnterInOrder
  intro s
  dsimp only
  refine ⟨?rods, ?tickets, ?holds, ?queues, ?events, ?lastEvent, ?status, ?largeRod, ?largeTicket, ?settled⟩
  case rods => exact fun vs => exec_admission_rod
  case tickets => exact fun frames => exec_admission_ticket
  case holds =>
    intro r rod ticket hold queue event status fit
    rw [exec_admission_hold rod ticket hold queue event status fit, admitOne_hold _ hold]
    rfl
  case queues =>
    intro e rest rod ticket hold queue leaves behind event status fit
    rw [exec_admission_queue rod ticket hold queue leaves behind event status fit, admitOne_queue _ hold queue]
    rfl
  case events =>
    intro src rod ticket strata pending others status fit
    rw [exec_admission_event rod ticket strata pending others status fit,
      admitOne_event_eq pending (fun q h => others q h.ne), eventRecord_eq]
  case lastEvent =>
    intro src other rod ticket strata pending lower above waits last
    have run := exec_admission_event_last rod ticket strata pending lower above waits last
    rw [eventRecord_eq] at run
    exact run
  case status =>
    intro cause rod ticket strata event due fit
    refine ⟨?_, ?_, rfl, rfl, rfl⟩
    · rw [exec_admission_status rod ticket strata event due fit, admitOne_status]
      rfl
    · rfl
  case largeRod =>
    intro r rest out large
    have own : offeredRecord s .rod = some r := congrArg List.head? out
    exact congrArg Host.Outcome.next (admission_of_settled (admissible_of_large
      (waiting_head? (before := []) rfl (fun _ h => absurd h List.not_mem_nil) (isWaiting_of_offered own)) own large))
  case largeTicket =>
    intro r rod ticket large
    have noRod := not_waiting_rod.2 rod
    exact congrArg Host.Outcome.next (admission_of_settled (admissible_of_large (p := .ticket)
      (waiting_head? (before := [.rod]) rfl (List.forall_mem_singleton.2 noRod) (isWaiting_of_offered ticket)) ticket
      large))
  case settled => exact fun settled => congrArg Host.Outcome.next (admission_of_settled settled)

end

end Sys2Proof.Machine

/-! # STATUS: its period and its request (R23, R24) -/

namespace Sys2Proof.Machine

/-! ## A wait that begins in a step -/

/-- Where a producer has begun to wait the line interface admits records at the end of the step (R23). -/
theorem admitted_of_begun {s t : State} {p : Producer} (before : isWaiting s p = false) (own : isWaiting t p = true) :
    admitted s t = admitRecords (waiting s) t := by
  refine if_neg fun all => ?_
  rw [List.all_eq_true.1 all p (mem_waiting.2 own)] at before
  cases before

/-- A record that begins to wait alone in a step, and fits, has entered at its end. -/
theorem admitted_alone {s t : State} {p : Producer} {r : RecordBody} (before : isWaiting s p = false)
    (own : offeredRecord t p = some r) (others : ∀ q, q ≠ p → isWaiting t q = false)
    (fit : r.frames.length ≤ recordRoom t) (last : isWaiting (admitOne p r t) p = false) :
    admitted s t = admitOne p r t :=
  (admitted_of_begun before (isWaiting_of_offered own)).trans (admission_alone own others fit last)

/-! ## Occurrences of a source without a class -/

theorem raise_unrouted {o : Occ} {s : State} (none : routeOf s o.src = none) : raise o s = takeOccurrence o s := by
  show occurWith _ o s = _
  rw [occurWith, none]

/-! ## STATUS alone -/

section
variable {s : State} {cause : StatusCause}

theorem statusDue_other {q : Producer} (other : q ≠ .status) : isWaiting (statusDue cause s) q = isWaiting s q := by
  cases q with
  | rod => rfl
  | ticket => rfl
  | strata => rfl
  | event => exact isWaiting_event_congr rfl
  | status => exact absurd rfl other

/-- In a state with no record waiting STATUS that becomes due waits alone, with the cause given. -/
theorem statusDue_alone (idle : waiting s = []) :
    offeredRecord (statusDue cause s) .status = some (statusRecord s cause) ∧
      ∀ q, q ≠ .status → isWaiting (statusDue cause s) q = false := by
  have none := waiting_eq_nil.1 idle
  have due : (statusDue cause s).line.statusDue = some cause :=
    congrArg (fun d : Option StatusCause => some (d.getD cause)) (not_waiting_status.1 (none .status))
  refine ⟨?_, fun q other => (statusDue_other other).trans (none q)⟩
  rw [offeredRecord, due]
  rfl

/-- STATUS that becomes due while no record waits, and fits, has entered at the end of the step (R23, R24). -/
theorem admitted_statusDue {g : State} (idle : waiting s = []) (same : SameWaits s g)
    (room : g.line.records.length + 3 ≤ 64) :
    admitted s (statusDue cause g) =
      { g with line := lineAfterEntry 5 (statusRecord g cause).frames g.line } := by
  have none := waiting_eq_nil.1 idle
  have still : waiting g = [] := waiting_eq_nil.2 fun p => (same.isWaiting p).trans (none p)
  obtain ⟨own, others⟩ := statusDue_alone (cause := cause) still
  have due := not_waiting_status.1 (waiting_eq_nil.1 still .status)
  rw [admitted_alone (none .status) own others (room_of_le room) (not_waiting_status.2 (by rw [admitOne_status])),
    admitOne_status]
  show { g with line := { lineAfterEntry 5 (statusRecord g cause).frames g.line with statusDue := Option.none } } = _
  rw [← due]
  rfl

/-- STATUS that has begun to wait for room, with RECORD_QUEUE_FULL taken for it. -/
def statusWaits (cause : StatusCause) (s : State) : State :=
  takeOccurrence { src := srcQueueFull, detail := 5, applied := true } (statusDue cause s)

theorem statusWaits_account (q : Source) : (statusWaits cause s).event.accounts[q] =
    if q = srcQueueFull then
      s.event.accounts[q].take { src := srcQueueFull, detail := 5, applied := true } s.depth.jobClock
    else s.event.accounts[q] :=
  takeOccurrence_account { src := srcQueueFull, detail := 5, applied := true } (statusDue cause s) q

/-- The EVENT record of that RECORD_QUEUE_FULL waits before STATUS, and nothing else does. -/
theorem statusWaits_offers (idle : waiting s = []) :
    offeredRecord (statusWaits cause s) .event = some (eventRecord (statusWaits cause s) srcQueueFull) ∧
      (∀ q, q ≠ .event → q ≠ .status → isWaiting (statusWaits cause s) q = false) ∧
      ∀ q : Source, q ≠ srcQueueFull → (statusWaits cause s).event.accounts[q].pending = false := by
  have none := waiting_eq_nil.1 idle
  have account := statusWaits_account (cause := cause) (s := s)
  have others (q : Source) (other : q ≠ srcQueueFull) : (statusWaits cause s).event.accounts[q].pending = false := by
    rw [account, if_neg other]
    exact not_waiting_event.1 (none .event) q
  have lowest : lowestPending (statusWaits cause s) = some srcQueueFull :=
    lowestPending_eq (by rw [account, if_pos rfl]; rfl) fun q below => others q below.ne
  refine ⟨by rw [offeredRecord, lowest, Option.map_some], fun q event status => ?_, others⟩
  cases q with
  | rod => exact (isWaiting_rod_congr rfl).trans (none .rod)
  | ticket => exact (isWaiting_ticket_congr rfl).trans (none .ticket)
  | strata => exact (isWaiting_strata_congr rfl rfl).trans (none .strata)
  | event => exact absurd rfl event
  | status => exact absurd rfl status

/-- The state in which the record of that RECORD_QUEUE_FULL has entered. -/
def statusKept (cause : StatusCause) (s : State) : State :=
  admitOne .event (eventRecord (statusWaits cause s) srcQueueFull) (statusWaits cause s)

theorem statusKept_eq (idle : waiting s = []) : statusKept cause s =
    setAccount srcQueueFull (statusWaits cause s).event.accounts[srcQueueFull].entered
      (enterRecord (eventRecord (statusWaits cause s) srcQueueFull) (statusWaits cause s)) := by
  obtain ⟨own, -, others⟩ := statusWaits_offers (cause := cause) idle
  refine admitOne_event _ (lowestPending_eq ?_ fun q below => others q below.ne)
  rw [statusWaits_account, if_pos rfl]
  rfl

theorem statusKept_due (idle : waiting s = []) : (statusKept cause s).line.statusDue = some cause := by
  rw [statusKept_eq idle]
  exact congrArg (fun d : Option StatusCause => some (d.getD cause))
    (not_waiting_status.1 (waiting_eq_nil.1 idle .status))

/-- After that entry STATUS waits alone. -/
theorem statusKept_others (idle : waiting s = []) : ∀ q, q ≠ .status → isWaiting (statusKept cause s) q = false := by
  obtain ⟨own, notWaiting, others⟩ := statusWaits_offers (cause := cause) idle
  intro q status
  by_cases event : q = .event
  · rw [event, not_waiting_event]
    intro src
    rw [statusKept_eq idle, setAccount_account]
    split
    · rfl
    · next other => exact others src other
  · exact (admitOne_other _ _ event).trans (notWaiting q event status)

/-- With one or two places left STATUS waits on, and the record of its RECORD_QUEUE_FULL enters, where that source has no
class (R23). -/
theorem admitted_statusDue_full {g : State} (idle : waiting s = []) (same : SameWaits s g)
    (nearly : 61 < g.line.records.length) (notFull : g.line.records.length < 64)
    (unrouted : routeOf g srcQueueFull = none) : admitted s (statusDue cause g) = statusKept cause g := by
  have none := waiting_eq_nil.1 idle
  have still : waiting g = [] := waiting_eq_nil.2 fun p => (same.isWaiting p).trans (none p)
  obtain ⟨own, others⟩ := statusDue_alone (cause := cause) still
  have large : admissible (statusDue cause g) = Option.none :=
    admissible_of_large (waiting_head?_of_alone others (isWaiting_of_offered own)) own
      (show 64 - g.line.records.length < 3 by omega)
  have judge : unjudged [] (statusDue cause g) = some .status := by
    simp [unjudged, admissionOrder, others, isWaiting_of_offered own]
  have occurs : occurNat srcQueueFull Producer.status.code (statusDue cause g) = statusWaits cause g :=
    raise_unrouted unrouted
  obtain ⟨event, notWaiting, -⟩ := statusWaits_offers (cause := cause) still
  have first : (waiting (statusWaits cause g)).head? = some .event :=
    waiting_head? (before := [.rod, .ticket, .strata]) rfl (by simp [notWaiting]) (isWaiting_of_offered event)
  have fit : (eventRecord (statusWaits cause g) srcQueueFull).frames.length ≤ recordRoom (statusWaits cause g) :=
    room_of_le (show g.line.records.length + 1 ≤ 64 by omega)
  have waits : offeredRecord (statusKept cause g) .status = some (statusRecord (statusKept cause g) cause) := by
    rw [offeredRecord, statusKept_due still, Option.map_some]
  have room : recordRoom (statusKept cause g) < 3 := by
    have : recordRoom (statusKept cause g) = 64 - g.line.records.length - 1 := admitOne_room ..
    omega
  have only := statusKept_others (cause := cause) still
  rw [admitted_of_begun (none .status) (isWaiting_of_offered own), idle]
  show admission (130 + 1 + 1 + 1) [] (statusDue cause g) = _
  rw [admission_judge large judge, occurs, admission_admit (admissible_of_head? first event fit)]
  refine admission_done (admissible_of_large (waiting_head?_of_alone only (isWaiting_of_offered waits)) waits room)
    (unjudged_eq_none fun q own => ?_)
  by_cases status : q = .status
  · rw [status]
    decide
  · exact absurd (own.symm.trans (only q status)) (by decide)

/-- RECORD_QUEUE_FULL has occurred with the type of the STATUS record that waits. -/
theorem statusKept_occurred {g : State} (idle : waiting g = []) (event : g.event = s.event)
    (clock : g.depth = s.depth) (records : g.line.records = s.line.records) :
    Occurred srcQueueFull 5 true s (statusKept cause g) := by
  have before := (congrArg (fun e : EventState => e.accounts[srcQueueFull].pending) event).symm.trans
    (not_waiting_event.1 (waiting_eq_nil.1 idle .event) srcQueueFull)
  have waits : (statusWaits cause g).event.accounts[srcQueueFull] =
      s.event.accounts[srcQueueFull].take { src := srcQueueFull, detail := 5, applied := true } s.depth.jobClock := by
    rw [statusWaits_account, if_pos rfl, event, clock]
  have kept : (statusKept cause g).event.accounts[srcQueueFull] =
      (statusWaits cause g).event.accounts[srcQueueFull].entered := by
    rw [statusKept_eq idle, setAccount_account, if_pos rfl]
  obtain ⟨f, mem, shows⟩ := eventRecord_frame g.line.serial srcQueueFull (statusWaits cause g)
  have new : f ∈ newFrames s (statusKept cause g) := by
    have queue : (statusKept cause g).line.records =
        s.line.records ++ recordFrames g.line.serial (eventRecord (statusWaits cause g) srcQueueFull) := by
      rw [statusKept_eq idle, ← records]
      rfl
    rw [newFrames, queue, List.drop_left]
    exact mem
  rw [waits] at shows
  unfold Occurred
  rw [kept, waits]
  exact ⟨rfl, rfl, rfl, .inr ⟨rfl, rfl, f, new, shows⟩⟩

end

/-! ## The status period and the STATUS request -/

section
variable {s : State}

theorem statusPeriodDue_iff {g : Settings} (active : settings s = some g) :
    statusPeriodDue s = true ↔ g.statusPeriod * 1000 ≤ s.now - s.line.statusTimerStart := by
  simp [statusPeriodDue, active]

/-- The line interface as the status timer restarts. -/
def statusRestarted (s : State) : State := s.setLine { s.line with statusTimerStart := s.now }

theorem exec_statusPeriod_due (settled : Settled s) (due : statusPeriodDue s = true) :
    ∃ t, exec .statusPeriod s = .next t ∧ SameButRecords (statusRestarted s) t ∧ StatusMade .period s t := by
  have run : exec .statusPeriod s = .next (admitted s (statusDue .period (statusRestarted s))) :=
    congrArg Host.Outcome.next (if_pos due)
  have unit := statusDue_eventOnly .period (statusRestarted s)
  refine ⟨_, run, unit.sameRecords.trans (admitted_sameRecords settled ⟨rfl, rfl, rfl, rfl⟩ rfl), ?_⟩
  exact StatusMade.admitted (s := s) (t := statusDue .period (statusRestarted s)) (List.prefix_refl _) (.inl rfl) s

theorem exec_statusPeriod_early (early : statusPeriodDue s = false) : exec .statusPeriod s = .next s :=
  congrArg Host.Outcome.next (if_neg (by rw [early]; decide))

/-- A STATUS request that is taken ends as STATUS becomes due with its answer placed (R24). -/
theorem exec_status_taken {f : Frame} {rest : List Frame} (asks : Asks s 19 f rest) (empty : f.values = []) :
    exec .status s = .next (admitted s (statusDue .request (answered f rest 0 [] s))) := by
  have run := takeRequest_replied (kind := (· == 19)) (countFits := (· == 0)) (whileEnding := true) asks rfl
    (by simp [empty]) (.inr rfl) (show statusBody f (taken rest s) = _ from rfl)
  have answer : replied f (Reply.echo .ok) (statusDue .request (taken rest s)) =
      statusDue .request (answered f rest 0 [] s) := by
    have values : responseFrame f.tag f.values (Reply.echo .ok) =
        { kind := 5, governed := true, node := 0, tag := f.tag, values := [BitVec.ofNat 16 0] } := by
      rw [empty]
      rfl
    rw [replied, values]
    rfl
  exact congrArg (Host.Outcome.next ∘ admitted s) (run.trans answer)

/-- Settles O16. -/
theorem statusBecomesDue : Obligations.StatusBecomesDue := by
  unfold Obligations.StatusBecomesDue
  intro s settled
  refine ⟨fun g active due => exec_statusPeriod_due settled ((statusPeriodDue_iff active).2 due),
    fun g active early => exec_statusPeriod_early ?_, fun inactive => exec_statusPeriod_early ?_, ?request⟩
  · rw [← Bool.not_eq_true, statusPeriodDue_iff active]
    omega
  · simp [statusPeriodDue, inactive]
  case request =>
    intro f rest asks empty
    have same : SameWaits s (answered f rest 0 [] s) := (SameWaits.refl s).answered ..
    refine ⟨_, exec_status_taken asks empty, ?_, ?_, fun idle room => admitted_statusDue idle same room,
      fun idle nearly notFull unrouted => ?_⟩
    · exact (statusDue_eventOnly .request _).sameRecords.trans
        (admitted_sameRecords settled ⟨rfl, rfl, rfl, rfl⟩ rfl)
    · exact StatusMade.admitted (s := s) (t := statusDue .request (answered f rest 0 [] s)) (List.prefix_refl _)
        (.inl rfl) s
    · have still : waiting (answered f rest 0 [] s) = [] :=
        waiting_eq_nil.2 fun p => (same.isWaiting p).trans (waiting_eq_nil.1 idle p)
      rw [admitted_statusDue_full idle same nearly notFull unrouted]
      exact ⟨statusKept_due still, statusKept_occurred still rfl rfl rfl⟩

end

end Sys2Proof.Machine

/-! # Channels that age: STALE and LOST (R28, R31, R38) -/

namespace Sys2Proof.Machine

section
variable {s : State} {c : Ch} {y : Channel}

/-! ## What a fall brings -/

/-- A channel's limits and its fault are reported (R31, R36). -/
def conditionsReported (c : Ch) (s : State) : State := reportFault c (reportLimits c s)

/-- Its conditions are reported and CH_FAULT occurs with a cause (R31). -/
def fallNoted (c : Ch) (cause : Nat) (s : State) : State :=
  occurNat (srcChFault c) (cause * 65536) (conditionsReported c s)

theorem channelChanged_stale {before : ValueState} (was : before = .live) (now : s.channels[c].state = .stale) :
    channelChanged c before s = stateNotice c .stale (fallNoted c 1 s) := by
  unfold channelChanged
  rw [was, now]
  rfl

theorem channelChanged_lost {before : ValueState} (was : before = .stale) (now : s.channels[c].state = .lost) :
    channelChanged c before s = stateNotice c .lost (fallNoted c 2 s) := by
  unfold channelChanged
  rw [was, now]
  rfl

theorem srcChFault_ne {src : Source} (high : 16 ≤ src.val) : srcChFault c ≠ src := by
  rintro rfl
  exact absurd c.isLt (Nat.not_lt.2 high)

theorem srcChFault_apart : srcChFault c ≠ srcPumpClamp := srcChFault_ne (by decide)

theorem reportLimit_sameAccount {src : Source} (apart : src ≠ srcPumpClamp) (l : LimitNo) :
    SameAccount src s (reportLimit c l s) := by
  unfold reportLimit
  split
  · exact report_sameAccount apart _ _ s
  · exact .refl src s

theorem conditionsReported_eventOnly : EventOnly s (conditionsReported c s) :=
  ((reportLimit_eventOnly s c .l1).trans (reportLimit_eventOnly _ c .l2)).trans (report_eventOnly _ _ _)

theorem conditionsReported_sameAccount : SameAccount (srcChFault c) s (conditionsReported c s) :=
  ((reportLimit_sameAccount srcChFault_apart .l1).trans (reportLimit_sameAccount srcChFault_apart .l2)).trans
    (report_sameAccount srcChFault_apart _ _ _)

theorem fallNoted_eventOnly (cause : Nat) : EventOnly s (fallNoted c cause s) :=
  conditionsReported_eventOnly.trans (occurNat_eventOnly _ _ _)

theorem fallNoted_occurred (cause : Nat) :
    Occurred (srcChFault c) (BitVec.ofNat 32 (cause * 65536)) true s (fallNoted c cause s) :=
  occurred_occurNat (u := conditionsReported c s) _ srcChFault_apart conditionsReported_sameAccount
    (congrArg DepthState.jobClock conditionsReported_eventOnly.depth)

/-- The CH_FAULT of a fall has occurred once its notice has gone out (R31). -/
theorem fallen_occurred (cause : Nat) (v : ValueState) :
    Occurred (srcChFault c) (BitVec.ofNat 32 (cause * 65536)) true s
      (stateNotice c v (fallNoted c cause (setChannel c y s))) := by
  have occurred : Occurred (srcChFault c) (BitVec.ofNat 32 (cause * 65536)) true s
      (fallNoted c cause (setChannel c y s)) := fallNoted_occurred (s := setChannel c y s) cause
  have calm := stateNotice_calm (fallNoted c cause (setChannel c y s)) c v
  have queue : (fallNoted c cause (setChannel c y s)).line.records = s.line.records :=
    (fallNoted_eventOnly (c := c) (s := setChannel c y s) cause).records
  exact occurred.keep (calm.accounts _ (c.isLt.trans (by decide))) (queue ▸ List.prefix_refl _)
    (by rw [calm.line])

/-- What a channel's fall leaves as it was, once its notice has gone out. -/
theorem fallen_units (cause : Nat) (v : ValueState) :
    let t := stateNotice c v (fallNoted c cause (setChannel c y s))
    t.channels = s.channels.set c y ∧ t.rod = s.rod ∧ t.bill = s.bill ∧ t.lag = s.lag ∧ t.gov = s.gov ∧
      t.tables = s.tables ∧ t.line.records = s.line.records := by
  have calm := stateNotice_calm (fallNoted c cause (setChannel c y s)) c v
  have unit := fallNoted_eventOnly (c := c) (s := setChannel c y s) cause
  exact ⟨calm.channels.trans unit.channels, calm.rod.trans unit.rod, calm.bill.trans unit.bill,
    calm.lag.trans unit.lag, calm.gov.trans unit.gov, calm.tables.trans unit.tables,
    (congrArg LineState.records calm.line).trans unit.records⟩

/-- A channel has fallen by the end of its step. -/
theorem fallen_admitted (settled : Settled s) (cause : Nat) (v : ValueState) :
    let t := admitted s (stateNotice c v (fallNoted c cause (setChannel c y s)))
    t.channels = s.channels.set c y ∧ Occurred (srcChFault c) (BitVec.ofNat 32 (cause * 65536)) true s t ∧
      t.rod = s.rod ∧ t.bill = s.bill ∧ t.lag = s.lag ∧ t.gov = s.gov ∧ t.tables = s.tables := by
  obtain ⟨channels, rod, bill, lag, gov, tables, records⟩ := fallen_units (s := s) (c := c) (y := y) cause v
  have same := (admitted_sameRecords settled (SameOffers.ofUnits rod bill lag) records).sameUnits
  refine ⟨same.channels.trans channels, ?_, same.rod.trans rod, same.bill.trans bill, same.lag.trans lag,
    same.gov.trans gov, same.tables.trans tables⟩
  exact Occurred.admitted srcChFault_apart (srcChFault_ne (by decide)) (records ▸ List.prefix_refl _) (fallen_occurred cause v) s

/-! ## CHANNEL_STALE and CHANNEL_LOST -/

theorem setChannel_self : (setChannel c y s).channels[c] = y := by
  rw [setChannel_channels, if_pos rfl]

theorem staleDue_of (aged : c ≠ 11) (bound : binding s c ≠ none) (live : s.channels[c].state = .live)
    (late : staleTime s c < s.now - s.channels[c].takenAt) : staleDue s c = true := by
  unfold staleDue
  rw [Option.isSome_iff_ne_none.2 bound, bne_iff_ne.2 aged, live]
  exact decide_eq_true late

theorem lostDue_of (aged : c ≠ 11) (bound : binding s c ≠ none) (stale : s.channels[c].state = .stale)
    (late : 4 * staleTime s c ≤ s.now - s.channels[c].takenAt) : lostDue s c = true := by
  unfold lostDue
  rw [Option.isSome_iff_ne_none.2 bound, bne_iff_ne.2 aged, stale]
  exact decide_eq_true late

/-- The fault condition of a channel that has fallen is true (R31). -/
theorem fault_of_changed (aged : c ≠ 11) (before : ValueState) (state : y.state = .stale ∨ y.state = .lost) :
    cond (channelChanged c before (setChannel c y s)) (srcChFault c) = true := by
  have fault := (channelChanged_conditions (setChannel c y s) c before).2
  rw [FaultAt, channelFault, if_neg aged, channelChanged_channels, setChannel_self] at fault
  rw [fault]
  obtain is | is := state <;> rw [is]

/-- Settles O17. -/
theorem channelGoesStale : Obligations.ChannelGoesStale := by
  unfold Obligations.ChannelGoesStale
  intro s c settled aged bound live late
  obtain ⟨y, is⟩ : ∃ y : Channel, y = { s.channels[c] with state := .stale } := ⟨_, rfl⟩
  have now : y.state = .stale := by rw [is]
  have changed : exec (.channelStale c) s = .next (admitted s (channelChanged c .live (setChannel c y s))) := by
    rw [is, ← live]
    exact congrArg Host.Outcome.next (if_pos (staleDue_of aged bound live late))
  have fault := (cond_admitted s _ _).trans (fault_of_changed (s := s) aged .live (.inl now))
  rw [channelChanged_stale rfl ((congrArg Channel.state setChannel_self).trans now)] at changed fault
  obtain ⟨channels, occurred, units⟩ := fallen_admitted (y := y) (c := c) settled 1 .stale
  exact ⟨_, changed, is ▸ channels, occurred, fault, units⟩

/-- Settles O18. -/
theorem channelIsLost : Obligations.ChannelIsLost := by
  unfold Obligations.ChannelIsLost
  intro s c settled aged bound stale late
  obtain ⟨y, is⟩ : ∃ y : Channel, y = s.channels[c].withdrawn .lost := ⟨_, rfl⟩
  have now : y.state = .lost := by rw [is, Channel.withdrawn]
  have changed : exec (.channelLost c) s = .next (admitted s (channelChanged c .stale (setChannel c y s))) := by
    rw [is, ← stale]
    exact congrArg Host.Outcome.next (if_pos (lostDue_of aged bound stale late))
  have fault := (cond_admitted s _ _).trans (fault_of_changed (s := s) aged .stale (.inr now))
  have limits (l : LimitNo) (src : Source) (source : limitSource c l = some src) :
      cond (admitted s (channelChanged c .stale (setChannel c y s))) src = false := by
    have armed : y.limit l = .armed := by
      rw [is]
      cases l <;> rfl
    rw [cond_admitted, (channelChanged_conditions (setChannel c y s) c .stale).1 l src source,
      channelChanged_channels, setChannel_self, armed]
    rfl
  rw [channelChanged_lost rfl ((congrArg Channel.state setChannel_self).trans now)] at changed fault limits
  obtain ⟨channels, occurred, units⟩ := fallen_admitted (y := y) (c := c) settled 2 .lost
  exact ⟨_, changed, is ▸ channels, occurred, fault, limits, units⟩

end

end Sys2Proof.Machine

/-! # Alarm classes: occurrences, reports, acknowledgement (R168, R169, R172 to R175) -/

namespace Sys2Proof.Machine

/-! ## Classes through an admission -/

/-- What leaves its producer changes no class. -/
theorem admitOne_classes (p : Producer) (r : RecordBody) (s : State) :
    (admitOne p r s).event.classes = s.event.classes := by
  by_cases event : p = .event
  · rw [event, admitOne, releaseOffered]
    split <;> rfl
  · rw [admitOne, releaseOffered_event _ event]
    rfl

/-- The sources whose occurrences an admission can bring (R23, R183). -/
def AdmissionSource (q : Source) : Prop := q = srcQueueFull ∨ Brought q

/-- An admission makes classes ACTIVE by RECORD_QUEUE_FULL and what that brings, and changes no other (R23, R172). -/
theorem admission_classes (n : Nat) : ∀ judged s, ClassesRise AdmissionSource s (admission n judged s) := by
  induction n with
  | zero => exact fun _ s => .refl _ s
  | succ n ih =>
    intro judged s
    cases can : admissible s with
    | some o =>
      obtain ⟨p, r⟩ := o
      rw [admission_admit can]
      exact (ClassesRise.of_eq (admitOne_admits p r s (admissible_fits can)).tables (admitOne_classes p r s)).trans
        (ih _ _)
    | none =>
      cases next : unjudged judged s with
      | none =>
        rw [admission_done can next]
        exact .refl _ s
      | some p =>
        rw [admission_judge can next]
        have rises := (raise_classes { src := srcQueueFull, detail := BitVec.ofNat 32 p.code, applied := true } s).1
        exact ClassesRise.trans (p := AdmissionSource) rises (ih _ _)

theorem admitted_classes (s t : State) : ClassesRise AdmissionSource t (admitted s t) := by
  unfold admitted
  split
  · exact .refl _ t
  · exact admission_classes _ _ t

/-- A class that no such source is routed to is as it was. -/
theorem ClassesRise.kept {s t : State} (h : ClassesRise AdmissionSource s t) {k : AlarmClass}
    (full : routeOf s srcQueueFull ≠ some k) (clamp : routeOf s srcPumpClamp ≠ some k) :
    t.event.classes[k] = s.event.classes[k] := by
  obtain same | ⟨-, q, brings, routed⟩ := h.rise k
  · exact same
  · obtain rfl | brought := brings
    · exact absurd routed full
    · exact absurd (brought ▸ routed) clamp

/-! ## A class that becomes ACTIVE (R172, R174, R175) -/

section
variable {s t : State} {k : AlarmClass}

theorem ClassesRise.active {p : Source → Prop} (h : ClassesRise p s t) {j : AlarmClass}
    (active : s.event.classes[j] = .active) : t.event.classes[j] = .active := by
  obtain same | ⟨rises, -⟩ := h.rise j
  · exact same.trans active
  · exact rises

theorem actionInForce_of_active {a : Action} (active : s.event.classes[k] = .active)
    (carries : classCarries s k a = true) : actionInForce s a = true := by
  rw [actionInForce, List.any_eq_true]
  exact ⟨k, List.mem_finRange k, by rw [carries, active]; rfl⟩

theorem classCarries_congr (h : t.tables = s.tables) (a : Action) : classCarries t k a = classCarries s k a := by
  unfold classCarries actionByte activePages activeCopy
  rw [h]

section
variable {occ : Occ → State → State} (hocc : ∀ o s, KeepsDue s (occ o s))
include hocc

theorem activationNoticeWith_keepsDue : KeepsDue s (activationNoticeWith occ k s) := by
  unfold activationNoticeWith
  split
  · exact (stopPumpWith_keepsDue hocc _ _).trans (stopPumpWith_keepsDue hocc _ _)
  · exact fun _ h => h

/-- A class that was not ACTIVE makes STATUS due as it becomes so (R174). -/
theorem raiseClassWith_due (inactive : s.event.classes[k] ≠ .active) :
    (raiseClassWith occ k s).line.statusDue = some (s.line.statusDue.getD .cls) := by
  unfold raiseClassWith
  rw [if_neg inactive]
  exact activationNoticeWith_keepsDue hocc (s := statusDue .cls (setClass k .active s)) _ rfl

end

/-- An occurrence of a routed source (R168, R172, R175). -/
theorem raise_routed {o : Occ} (routed : routeOf s o.src = some k) :
    SameButEvents s (raise o s) ∧ (raise o s).event.classes[k] = .active ∧
      (∀ a, classCarries s k a = true → actionInForce (raise o s) a = true) ∧
      (∀ j : AlarmClass, s.event.classes[j] = .active → (raise o s).event.classes[j] = .active) ∧
      (s.event.classes[k] ≠ .active → (raise o s).line.statusDue = some (s.line.statusDue.getD .cls)) := by
  obtain ⟨rises, active⟩ := raise_classes o s
  have unit := raise_eventOnly o s
  refine ⟨unit.same, active k routed, fun a carries => ?_, fun j => rises.active, fun inactive => ?_⟩
  · exact actionInForce_of_active (active k routed) ((classCarries_congr unit.tables a).trans carries)
  · have step : raise o s = raiseClassWith (occurFuel 1) k (takeOccurrence o s) := by
      show (match routeOf s o.src with | none => _ | some k => _ : State) = _
      rw [routed]
    rw [step]
    exact raiseClassWith_due (occurFuel_keepsDue 1) (s := takeOccurrence o s) inactive

/-- A condition of a routed source that becomes true (R169, R172, R175). -/
theorem report_true_routed {src : Source} (before : cond s src = false) (routed : routeOf s src = some k) :
    SameButEvents s (report src true s) ∧ cond (report src true s) src = true ∧
      (report src true s).event.classes[k] = .active ∧
      (∀ a, classCarries s k a = true → actionInForce (report src true s) a = true) ∧
      (s.event.classes[k] ≠ .active →
        (report src true s).line.statusDue = some (s.line.statusDue.getD .cls)) := by
  have active := (report_true_classes src k s before routed).2
  have unit := report_eventOnly src true s
  refine ⟨unit.same, (report_cond src true s src).trans (if_pos rfl), active, fun a carries => ?_, fun inactive => ?_⟩
  · exact actionInForce_of_active active ((classCarries_congr unit.tables a).trans carries)
  · have step : report src true s =
        raiseClassWith raise k (setAccount src { s.event.accounts[src] with cond := true } s) := by
      unfold report
      rw [if_neg (by rw [before]; decide)]
      show (match routeOf s src with | none => _ | some k => _ : State) = _
      rw [routed]
      rfl
    rw [step]
    exact raiseClassWith_due raise_keepsDue (s := setAccount src _ s) inactive

/-- Another condition of a class is true beside that of a source (R172). -/
theorem routedTrue_withdrawn {src : Source} :
    routedTrue (setAccount src { s.event.accounts[src] with cond := false } s) k = true ↔
      ∃ x : Source, x ≠ src ∧ isConditionSource x = true ∧ cond s x = true ∧ routeOf s x = some k := by
  have after (x : Source) : cond (setAccount src { s.event.accounts[src] with cond := false } s) x =
      if x = src then false else cond s x := by
    rw [cond, setAccount_account, apply_ite Account.cond]
    rfl
  rw [routedTrue, List.any_eq_true]
  simp only [Bool.and_eq_true, beq_iff_eq, after]
  constructor
  · rintro ⟨x, -, ⟨source, true⟩, routed⟩
    by_cases e : x = src
    · rw [if_pos e] at true
      cases true
    · rw [if_neg e] at true
      exact ⟨x, e, source, true, routed⟩
  · rintro ⟨x, e, source, true, routed⟩
    exact ⟨x, List.mem_finRange x, ⟨source, (if_neg e).trans true⟩, routed⟩

/-- A class stays as it is after a condition has become false, or becomes INACTIVE (R172). -/
theorem fallenClass_eq (c : ClassState) (isLatched still : Bool) :
    fallenClass c isLatched still =
      if c = .inactive ∨ still = true ∨ (c = .active ∧ isLatched = true) then c else .inactive := by
  cases c with
  | inactive => rfl
  | active => cases still <;> cases isLatched <;> rfl
  | ackWait => cases still <;> rfl

/-- A condition of a routed source that becomes false (R169, R172). -/
theorem report_false_routed {src : Source} (before : cond s src = true) (routed : routeOf s src = some k) :
    let other := ∃ x : Source, x ≠ src ∧ isConditionSource x = true ∧ cond s x = true ∧ routeOf s x = some k
    let stays := s.event.classes[k] = .inactive ∨ other ∨ (s.event.classes[k] = .active ∧ latched s k = true)
    let put := fun c : ClassState => { s with event := { s.event with
      accounts := s.event.accounts.set src { s.event.accounts[src] with cond := false }
      classes := s.event.classes.set k c } }
    (stays → report src false s = put s.event.classes[k]) ∧
    (¬stays → report src false s = { put .inactive with
      line := { s.line with statusDue := some (s.line.statusDue.getD .cls) } }) := by
  intro other stays put
  have step := report_false_classes src k s before routed
  dsimp only at step
  rw [fallenClass_eq] at step
  constructor
  · intro h
    rw [if_pos (h.imp_right (Or.imp_left routedTrue_withdrawn.2)), if_pos rfl] at step
    rw [step]
    show _ = { s with event := _ }
    rw [show s.event.classes.set k s.event.classes[k] = s.event.classes from Vector.set_getElem_self _]
    rfl
  · intro h
    rw [if_neg (mt (Or.imp_right (Or.imp_left routedTrue_withdrawn.1)) h), if_neg fun e => h (.inl e.symm)] at step
    exact step

/-! ## The acknowledgement (R173) -/

theorem changeClass_same (k : AlarmClass) (s : State) : changeClass k s.event.classes[k] s = s := if_pos rfl

theorem changeClass_other {c : ClassState} (other : c ≠ s.event.classes[k]) :
    changeClass k c s = statusDue .cls (setClass k c s) := if_neg other

theorem acknowledged_inactive (isLatched still : Bool) : acknowledged .inactive isLatched still = (.inactive, .ok) := rfl

theorem acknowledged_clear (c : ClassState) (isLatched : Bool) : acknowledged c isLatched false = (.inactive, .ok) := by
  cases c <;> rfl

theorem acknowledged_active (isLatched : Bool) :
    acknowledged .active isLatched true = (if isLatched then .ackWait else .active, .stillActive) := rfl

theorem acknowledged_waits (isLatched : Bool) : acknowledged .ackWait isLatched true = (.ackWait, .stillActive) := rfl

section
variable {f : Frame} {rest : List Frame} {w : Word}

theorem ackClassBody_eq (one : f.values = [w]) (names : w.toNat = k.val) :
    ackClassBody f s =
      (changeClass k (acknowledged s.event.classes[k] (latched s k) (routedTrue s k)).1 s,
        some (Reply.values (acknowledged s.event.classes[k] (latched s k) (routedTrue s k)).2
          [w16 (acknowledged s.event.classes[k] (latched s k) (routedTrue s k)).1.code])) := by
  have no : classNo (f.val 0) = some k := by
    have is : f.val 0 = k.val := by rw [Frame.val, one]; exact names
    rw [classNo, is, dif_pos k.isLt]
  rw [ackClassBody, no]

theorem ackClassBody_large (one : f.values = [w]) (large : 7 < w.toNat) :
    ackClassBody f s = (s, some (Reply.echo .badValue)) := by
  have no : classNo (f.val 0) = none := by
    have is : f.val 0 = w.toNat := by rw [Frame.val, one]; rfl
    rw [classNo, is, dif_neg (by omega)]
  rw [ackClassBody, no]

/-- An acknowledgement that leaves the class as it is. -/
theorem exec_ackClass_stays (asks : Asks s 17 f rest) (one : f.values = [w]) (job : s.bill.job ≠ .ending)
    (names : w.toNat = k.val) {c : ClassState} {code : Code}
    (gives : acknowledged s.event.classes[k] (latched s k) (routedTrue s k) = (c, code))
    (same : s.event.classes[k] = c) :
    exec .ackClass s = .next (answered f rest code.num [w16 c.code] s) := by
  have body : ackClassBody f (taken rest s) = (taken rest s, some (Reply.values code [w16 c.code])) := by
    refine (ackClassBody_eq (s := taken rest s) one names).trans ?_
    rw [show acknowledged (taken rest s).event.classes[k] (latched (taken rest s) k) (routedTrue (taken rest s) k) =
      (c, code) from gives, ← same]
    exact congrArg (·, _) (changeClass_same k (taken rest s))
  exact congrArg Host.Outcome.next (admitted_takeRequest (body := ackClassBody) (kind := (· == 17)) (countFits := (· == 1))
    (whileEnding := false) asks rfl (by simp [one]) (.inl job) body (SameWaits.refl s))

/-- An acknowledgement that changes the class. -/
theorem exec_ackClass_changes (asks : Asks s 17 f rest) (one : f.values = [w]) (job : s.bill.job ≠ .ending)
    (names : w.toNat = k.val) {c : ClassState} {code : Code}
    (gives : acknowledged s.event.classes[k] (latched s k) (routedTrue s k) = (c, code))
    (other : c ≠ s.event.classes[k]) :
    exec .ackClass s =
      .next (admitted s (answered f rest code.num [w16 c.code] (statusDue .cls (setClass k c s)))) := by
  have body : ackClassBody f (taken rest s) =
      (taken rest (statusDue .cls (setClass k c s)), some (Reply.values code [w16 c.code])) := by
    refine (ackClassBody_eq (s := taken rest s) one names).trans ?_
    rw [show acknowledged (taken rest s).event.classes[k] (latched (taken rest s) k) (routedTrue (taken rest s) k) =
      (c, code) from gives]
    exact congrArg (·, _) (changeClass_other (s := taken rest s) other)
  exact congrArg (Host.Outcome.next ∘ admitted s) (takeRequest_by_body (body := ackClassBody) (kind := (· == 17))
    (countFits := (· == 1)) (whileEnding := false) asks rfl (by simp [one]) (.inl job) body)

/-- Where STATUS was due before, a change of a class makes nothing wait. -/
theorem admitted_class_due {c : ClassState} {due : StatusCause} (was : s.line.statusDue = some due) (n : Nat)
    (vs : List Word) :
    admitted s (answered f rest n vs (statusDue .cls (setClass k c s))) =
      answered f rest n vs { s with
        line := { s.line with statusDue := some due }
        event := { s.event with classes := s.event.classes.set k c } } := by
  have state : answered f rest n vs (statusDue .cls (setClass k c s)) =
      answered f rest n vs { s with
        line := { s.line with statusDue := some due }
        event := { s.event with classes := s.event.classes.set k c } } :=
    congrArg (fun d => answered f rest n vs { s with
        line := { s.line with statusDue := d }
        event := { s.event with classes := s.event.classes.set k c } })
      (show some (s.line.statusDue.getD .cls) = some due by rw [was]; rfl)
  rw [state]
  refine admitted_same fun p waits => ?_
  cases p with
  | rod => exact waits
  | ticket => exact waits
  | strata => exact waits
  | event =>
    rw [← Bool.not_eq_false, not_waiting_event] at waits ⊢
    exact waits
  | status => rw [isWaiting, offeredRecord, was]; rfl

/-- Where STATUS was not due, a change of a class makes it so, or its record enters, and the class stays where nothing
that the admission raises is routed to it. -/
theorem admitted_class_made {c : ClassState} (settled : Settled s) (none : s.line.statusDue = none) (n : Nat)
    (vs : List Word) :
    let t := admitted s (answered f rest n vs (statusDue .cls (setClass k c s)))
    SameButRecords (answered f rest n vs { s with
        line := { s.line with statusDue := some .cls }
        event := { s.event with classes := s.event.classes.set k c } }) t ∧ StatusMade .cls s t ∧
      (routeOf s srcQueueFull ≠ some k → routeOf s srcPumpClamp ≠ some k → t.event.classes[k] = c) := by
  have state : answered f rest n vs (statusDue .cls (setClass k c s)) =
      answered f rest n vs { s with
        line := { s.line with statusDue := some .cls }
        event := { s.event with classes := s.event.classes.set k c } } :=
    congrArg (fun d => answered f rest n vs { s with
        line := { s.line with statusDue := d }
        event := { s.event with classes := s.event.classes.set k c } })
      (show some (s.line.statusDue.getD .cls) = some .cls by rw [none]; rfl)
  refine ⟨?_, ?_, fun full clamp => ?_⟩
  · rw [state]
    exact admitted_sameRecords settled ⟨rfl, rfl, rfl, rfl⟩ rfl
  · exact StatusMade.admitted (s := s) (t := answered f rest n vs (statusDue .cls (setClass k c s)))
      (List.prefix_refl _) (.inl rfl) s
  · have route := routeOf_congr (s := s) (t := answered f rest n vs (statusDue .cls (setClass k c s))) rfl
    have kept := (admitted_classes s (answered f rest n vs (statusDue .cls (setClass k c s)))).kept (k := k)
      (by rw [route]; exact full) (by rw [route]; exact clamp)
    exact kept.trans ((setClass_get k c s k).trans (if_pos rfl))

end

/-- Settles O46. -/
theorem ackClassAcknowledges : Obligations.AckClassAcknowledges := by
  unfold Obligations.AckClassAcknowledges
  refine ⟨fun s f rest w settled asks one job => ⟨fun large => ?large, fun k names => ?acks⟩,
    fun s o k routed => raise_routed routed, fun s o unrouted => raise_unrouted unrouted,
    fun s src b same => if_pos same, ?unrouted, fun s src k before routed => report_true_routed before routed,
    fun s src k before routed => report_false_routed before routed⟩
  case large =>
    have run := admitted_takeRequest (body := ackClassBody) (kind := (· == 17)) (countFits := (· == 1))
      (whileEnding := false) asks rfl (by simp [one]) (.inl job) (ackClassBody_large (s := taken rest s) one large)
      (SameWaits.refl s)
    exact congrArg Host.Outcome.next (run.trans (by rw [show echo f = [w] from echo_of_values one]; rfl))
  case acks =>
    intro still put changes
    have changed (c : ClassState) (code : Code) (other : c ≠ s.event.classes[k])
        (gives : acknowledged s.event.classes[k] (latched s k) (routedTrue s k) = (c, code)) : changes c code.num := by
      have run := exec_ackClass_changes asks one job names gives other
      exact ⟨fun due was => run.trans (congrArg Host.Outcome.next (admitted_class_due was _ _)),
        fun none => ⟨_, run, admitted_class_made settled none _ _⟩⟩
    refine ⟨fun inactive => ?_, fun active on notLatched => ?_, fun waits on => ?_, fun notInactive off => ?_,
      fun active on isLatched => ?_⟩
    · exact exec_ackClass_stays asks one job names (by rw [inactive]; rfl) inactive
    · exact exec_ackClass_stays asks one job names
        (by rw [active, show routedTrue s k = true from on, notLatched]; rfl) active
    · exact exec_ackClass_stays asks one job names (by rw [waits, show routedTrue s k = true from on]; rfl) waits
    · exact changed .inactive .ok (Ne.symm notInactive)
        (by rw [show routedTrue s k = false from off, acknowledged_clear])
    · exact changed .ackWait .stillActive (by rw [active]; decide)
        (by rw [active, show routedTrue s k = true from on, isLatched]; rfl)
  case unrouted =>
    intro s src b other unrouted
    unfold report
    rw [if_neg other]
    show (match routeOf s src with | none => _ | some k => _ : State) = _
    rw [unrouted]
    rfl

end

end Sys2Proof.Machine

/-! # What a move of the string brings in the other units (R46, R47, R50 to R52, R70) -/

namespace Sys2Proof.Machine

/-- The sources that the rod unit alone raises and reports, and that a move of the string does not. -/
def RodSource (src : Source) : Prop := src = srcUntracked ∨ src = srcStringInvalid

/-- Besides the event unit's share only the depth, the circulation, the interval and the lag unit and the open ticket's
lines and last interval differ, and the rod unit's own sources have their accounts as they were. -/
structure Moves (s t : State) : Prop where
  now : t.now = s.now
  line : t.line = { s.line with statusDue := t.line.statusDue, injections := t.line.injections }
  channels : t.channels = s.channels
  rod : t.rod = s.rod
  gov : t.gov = s.gov
  tables : t.tables = s.tables
  bill : t.bill = { s.bill with lines := t.bill.lines, lastInterval := t.bill.lastInterval }
  accounts : ∀ src, RodSource src → t.event.accounts[src] = s.event.accounts[src]

section
variable {s t u : State}

theorem Moves.refl (s : State) : Moves s s := ⟨rfl, rfl, rfl, rfl, rfl, rfl, rfl, fun _ _ => rfl⟩

theorem Moves.trans (h : Moves s t) (k : Moves t u) : Moves s u where
  now := k.now.trans h.now
  line := by rw [k.line, h.line]
  channels := k.channels.trans h.channels
  rod := k.rod.trans h.rod
  gov := k.gov.trans h.gov
  tables := k.tables.trans h.tables
  bill := by rw [k.bill, h.bill]
  accounts := fun src own => (k.accounts src own).trans (h.accounts src own)

theorem Moves.ite {c : Prop} [Decidable c] (h : Moves s t) (k : Moves s u) : Moves s (if c then t else u) := by
  split <;> assumption

theorem EventOnly.moves (h : EventOnly s t)
    (accounts : ∀ src, RodSource src → t.event.accounts[src] = s.event.accounts[src]) : Moves s t where
  now := h.now
  line := h.line
  channels := h.channels
  rod := h.rod
  gov := h.gov
  tables := h.tables
  bill := by rw [h.bill]
  accounts := accounts

theorem ByClose.moves (h : ByClose s t) (now : t.now = s.now)
    (accounts : ∀ src, RodSource src → t.event.accounts[src] = s.event.accounts[src]) : Moves s t :=
  ⟨now, h.line, h.channels, h.rod, h.gov, h.tables, h.bill, accounts⟩

theorem RodSource.apart {src : Source} (own : RodSource src) : Apart src := by
  obtain rfl | rfl := own <;> unfold Apart <;> decide

/-- Another source than the rod unit's own. -/
abbrev OtherSource (src : Source) : Prop := src ≠ srcUntracked ∧ src ≠ srcStringInvalid

theorem RodSource.ne {src other : Source} (own : RodSource src) (h : OtherSource other) : src ≠ other := by
  obtain rfl | rfl := own
  exacts [h.1.symm, h.2.symm]

theorem Moves.occurNat (s : State) {src : Source} (d : Nat) (other : OtherSource src) :
    Moves s (occurNat src d s) :=
  (occurNat_eventOnly src d s).moves fun _ own => (raise_account _ s _ own.apart).trans (if_neg (own.ne other))

theorem Moves.report (s : State) {src : Source} (b : Bool) (other : OtherSource src) : Moves s (report src b s) :=
  (report_eventOnly src b s).moves fun _ own => (report_account src b s _ own.apart).trans (if_neg (own.ne other))

theorem Moves.setCondition (s : State) {src : Source} (b : Bool) (d : BitVec 32) (other : OtherSource src) :
    Moves s (setCondition src b d s) := by
  have occurs (v : State) : Moves v (occur src d v) := (occur_eventOnly src d v).moves fun _ own =>
    (raise_account _ v _ own.apart).trans (if_neg (own.ne other))
  unfold Machine.setCondition
  exact Moves.ite ((Moves.report s b other).trans (occurs _)) (Moves.report s b other)

end

section
variable (s : State)

/-! ## The circulation unit -/

theorem evalNoFlow_moves : Moves s (evalNoFlow s) := Moves.setCondition s _ _ (by decide)

theorem evalReturnLow_moves : Moves s (evalReturnLow s) := Moves.setCondition s _ _ (by decide)

theorem setPitGain_moves (b : Bool) : Moves s (setPitGain b s) := Moves.setCondition s _ _ (by decide)

theorem markLoss_moves : Moves s (markLoss s) := ⟨rfl, rfl, rfl, rfl, rfl, rfl, rfl, fun _ _ => rfl⟩

theorem setPitLoss_moves (b : Bool) : Moves s (setPitLoss b s) :=
  Moves.ite ((Moves.setCondition s _ _ (by decide)).trans (markLoss_moves _)) (Moves.setCondition s _ _ (by decide))

theorem pitWatch_moves : Moves s (pitWatch s) := by
  unfold pitWatch
  split
  · exact Moves.refl s
  · exact (setPitGain_moves s _).trans (setPitLoss_moves _ _)
  · exact (setPitGain_moves s _).trans (setPitLoss_moves _ _)

theorem Moves.circ (x : CircState) : Moves s (s.setCirc x) := ⟨rfl, rfl, rfl, rfl, rfl, rfl, rfl, fun _ _ => rfl⟩

theorem adjustPit_moves (d : Int) : Moves s (adjustPit d s) := Moves.ite (Moves.circ s _) (Moves.refl s)

theorem pitAdjustment_moves (d : Int) : Moves s (pitAdjustment d s) :=
  Moves.ite ((adjustPit_moves s d).trans (pitWatch_moves _)) (Moves.refl s)

theorem segmentWatch_moves : Moves s (segmentWatch s) := (evalReturnLow_moves s).trans (pitWatch_moves _)

theorem stepChain_moves (n : Nat) : ∀ s, Moves s (stepChain n s) := by
  induction n with
  | zero => exact Moves.refl
  | succ n ih =>
    intro s
    unfold stepChain
    split
    · refine Moves.ite (Moves.ite (Moves.ite (Moves.refl s) ?_) ?_) (Moves.refl s)
      · exact (Moves.circ s _).trans (Moves.occurNat _ _ (by decide))
      · exact ((Moves.circ s _).trans (Moves.occurNat _ _ (by decide))).trans (ih _)
    · exact Moves.refl s

theorem circAdvance_moves (a : Nat) : Moves s (circAdvance a s) :=
  ((adjustPit_moves s _).trans (stepChain_moves _ _)).trans (segmentWatch_moves _)

/-! ## The lag unit, the ticket and the interval -/

theorem releaseUnlagged_moves (r : Strata) : Moves s (releaseUnlagged r s) :=
  Moves.ite ⟨rfl, rfl, rfl, rfl, rfl, rfl, rfl, fun _ _ => rfl⟩ (Moves.occurNat s _ (by decide))

theorem lagJoin_moves (pages : List Page) (r : Strata) : Moves s (lagJoin pages r s) :=
  ⟨rfl, rfl, rfl, rfl, rfl, rfl, rfl, fun _ _ => rfl⟩

theorem profileEnd_moves (pages : List Page) (b : Nat) : Moves s (profileEnd pages b s) :=
  Moves.ite (Moves.occurNat s _ (by decide)) (Moves.refl s)

theorem lagTake_moves (r : Strata) : Moves s (lagTake r s) := by
  unfold lagTake
  split
  · exact releaseUnlagged_moves s r
  · next pages _ =>
    refine (profileEnd_moves s pages r.bottom).trans (Moves.ite (lagJoin_moves _ pages r) ?_)
    exact (Moves.occurNat _ _ (by decide)).trans (releaseUnlagged_moves _ r)

theorem accrue_moves (key q r : Nat) : Moves s (accrue key q r s) := by
  unfold accrue
  split
  · exact ⟨rfl, rfl, rfl, rfl, rfl, rfl, rfl, fun _ _ => rfl⟩
  · exact Moves.refl s

theorem billInterval_moves (n : BillingNotice) : Moves s (billInterval n s) := by
  have noted (v : State) (n : Option Nat) : Moves v (v.setBill { v.bill with lastInterval := n }) :=
    ⟨rfl, rfl, rfl, rfl, rfl, rfl, rfl, fun _ _ => rfl⟩
  unfold billInterval
  refine Moves.ite (Moves.trans ?_ (noted _ _)) (Moves.refl s)
  exact Moves.ite ((accrue_moves s _ _ _).trans (accrue_moves _ _ _ _)) (accrue_moves s _ _ _)

theorem Moves.interval (x : IntervalState) : Moves s (s.setInterval x) :=
  ⟨rfl, rfl, rfl, rfl, rfl, rfl, rfl, fun _ _ => rfl⟩

theorem classifyClose_moves (o : OpenInterval) (r : Strata) : Moves s (classifyClose o r s) := by
  unfold classifyClose
  split
  · exact Moves.interval s _
  · exact Moves.occurNat s _ (by decide)

theorem closed_moves (o : OpenInterval) (t : Trigger) (bottom : Nat) : Moves s (closed o t bottom s) :=
  (((classifyClose_moves s o _).trans (Moves.interval _ _)).trans (lagTake_moves _ _)).trans (billInterval_moves _ _)

theorem closeInterval_moves (t : Trigger) (bottom : Nat) : Moves s (closeInterval t bottom s) := by
  cases e : s.interval.current with
  | none => unfold closeInterval; rw [e]; exact Moves.refl s
  | some o =>
    rw [closeInterval_some s e]
    exact Moves.ite (closed_moves s o t bottom) ((closed_moves s o t bottom).trans (Moves.interval _ _))

theorem intervalAdvance_moves (a n w : Nat) : Moves s (intervalAdvance a n w s) := by
  unfold intervalAdvance
  split
  · exact Moves.refl s
  · dsimp only
    split
    · exact Moves.ite ((Moves.interval s _).trans (closeInterval_moves _ _ _)) (Moves.interval s _)
    · exact Moves.interval s _

/-! ## The depth unit -/

theorem Moves.depth (x : DepthState) : Moves s (s.setDepth x) := ⟨rfl, rfl, rfl, rfl, rfl, rfl, rfl, fun _ _ => rfl⟩

theorem recomputeBits_moves : Moves s (recomputeBits s) := Moves.depth s _

theorem recomputeWeight_moves : Moves s (recomputeWeight s) :=
  (Moves.depth s _).trans ((Moves.depth _ _).trans (Moves.setCondition _ _ _ (by decide)))

theorem setActivity_moves (a : Activity) : Moves s (setActivity a s) :=
  Moves.ite (Moves.refl s) ((Moves.depth s _).trans (evalNoFlow_moves _))

theorem takeCandidate_moves (x : Activity) : Moves s (takeCandidate x s) := by
  have atOnce := (Moves.depth s _).trans (setActivity_moves (setCandidate x none s) x)
  exact Moves.ite atOnce (Moves.ite (Moves.ite atOnce (Moves.depth s _)) (Moves.refl s))

theorem recomputeCandidate_moves : Moves s (recomputeCandidate s) := takeCandidate_moves s _

theorem takeAdvance_moves (raw d : Nat) : Moves s (takeAdvance raw d s) :=
  (((Moves.depth s _).trans (recomputeBits_moves _)).trans (intervalAdvance_moves _ _ _ _)).trans (circAdvance_moves _ _)

theorem evalAdvance_moves : Moves s (evalAdvance s) := by
  unfold evalAdvance
  split
  · refine Moves.ite (Moves.depth s _) (Moves.ite (takeAdvance_moves s _ _) (Moves.ite (Moves.refl s) ?_))
    exact (Moves.occurNat s _ (by decide)).trans (Moves.depth _ _)
  · exact Moves.refl s

/-- A string change (R47). -/
theorem stringChange_moves : Moves s (stringChange s) :=
  (((recomputeBits_moves s).trans (evalAdvance_moves _)).trans (recomputeWeight_moves _)).trans
    (recomputeCandidate_moves _)

theorem moveTop_moves (d : Int) : Moves s (moveTop d s) := by
  unfold moveTop
  split
  · exact Moves.depth s _
  · exact Moves.refl s

/-- A push or pop notice (R46, R47). -/
theorem rodMoveNotice_moves (d : Int) : Moves s (rodMoveNotice d s) :=
  ((Moves.depth s _).trans (moveTop_moves _ d)).trans (stringChange_moves _)

/-- A commit notice (R47). -/
theorem commitNotice_moves (top : Option Int) : Moves s (commitNotice top s) := by
  unfold commitNotice
  split
  · exact (Moves.depth s _).trans (stringChange_moves _)
  · exact stringChange_moves s

end

end Sys2Proof.Machine

/-! # ACTIVATE (R195) -/

namespace Sys2Proof.Machine

/-! ## What a newly active copy brings -/

/-- What the statement of ACTIVATE says of the units besides the table store: the job, the string, the rod table, the
record queue and the request FIFO are as they were. -/
structure Activates (s t : State) : Prop where
  tables : t.tables = s.tables
  job : t.bill.job = s.bill.job
  string : t.rod.string = s.rod.string
  table : t.rod.table = s.rod.table
  records : t.line.records = s.line.records
  requests : t.line.requests = s.line.requests

section
variable {s t u : State}

theorem Activates.refl (s : State) : Activates s s := ⟨rfl, rfl, rfl, rfl, rfl, rfl⟩

theorem Activates.trans (h : Activates s t) (k : Activates t u) : Activates s u :=
  ⟨k.tables.trans h.tables, k.job.trans h.job, k.string.trans h.string, k.table.trans h.table,
    k.records.trans h.records, k.requests.trans h.requests⟩

theorem Activates.ite {c : Prop} [Decidable c] (h : Activates s t) (k : Activates s u) :
    Activates s (if c then t else u) := by
  split <;> assumption

theorem Calm.activates (h : Calm s t) : Activates s t :=
  ⟨h.tables, congrArg BillState.job h.bill, congrArg RodState.string h.rod, congrArg RodState.table h.rod,
    by rw [h.line], by rw [h.line]⟩

theorem EventOnly.activates (h : EventOnly s t) : Activates s t :=
  ⟨h.tables, congrArg BillState.job h.bill, congrArg RodState.string h.rod, congrArg RodState.table h.rod,
    by rw [h.line], by rw [h.line]⟩

theorem Moves.activates (h : Moves s t) : Activates s t :=
  ⟨h.tables, by rw [h.bill], congrArg RodState.string h.rod, congrArg RodState.table h.rod,
    by rw [h.line], by rw [h.line]⟩

end

section
variable (s : State)

theorem channelChanged_activates (c : Ch) (before : ValueState) : Activates s (channelChanged c before s) := by
  have reported : Activates s (reportFault c (reportLimits c s)) := (conditionsReported_eventOnly (c := c)).activates
  unfold channelChanged
  refine Activates.ite reported (Activates.trans ?_ (stateNotice_calm _ c _).activates)
  split
  · exact reported.trans (channelOccur_eventOnly c 1 0 _).activates
  · exact reported.trans (channelOccur_eventOnly c 2 0 _).activates
  · exact reported

theorem changeChannels_activates (cs : List Ch) (g : Ch → Channel → Channel) : Activates s (changeChannels cs g s) := by
  have written : Activates s (cs.foldl (fun t c => setChannel c (g c s.channels[c]) t) s) :=
    List.foldlRecOn (motive := Activates s) _ _ (Activates.refl s) fun t h c _ => h.trans ⟨rfl, rfl, rfl, rfl, rfl, rfl⟩
  exact List.foldlRecOn (motive := Activates s) _ _ written fun t h c _ => h.trans (channelChanged_activates t c _)

theorem unbindSetpoint_activates (old : List Page) (r : Role) : Activates s (unbindSetpoint old r s) := by
  refine Activates.ite (Activates.refl s) ?_
  unfold remember
  split <;> exact ⟨rfl, rfl, rfl, rfl, rfl, rfl⟩

theorem channelActivated_activates (old : List Page) : Activates s (channelActivated old s) :=
  ((unbindSetpoint_activates s old .pump1).trans (unbindSetpoint_activates _ old .pump2)).trans
    (changeChannels_activates _ _ _)

theorem classReroute_activates (before : ClassState) (k : AlarmClass) (now : ClassState) :
    Activates s (classReroute before k now s) := by
  have due := (statusDue_eventOnly .cls s).activates
  exact Activates.ite (Activates.refl s)
    (due.trans (Activates.ite (activationNoticeWith_eventOnly raise_eventOnly k _).activates (Activates.refl _)))

theorem routeActivated_activates : Activates s (routeActivated s) :=
  List.foldlRecOn (motive := Activates s) _ _ ⟨rfl, rfl, rfl, rfl, rfl, rfl⟩
    fun t h k _ => h.trans (classReroute_activates t _ k _)

theorem recomputeFatigue_activates : Activates s (recomputeFatigue s) :=
  Activates.trans (t := s.setRod { s.rod with fatigueLimit := (limitingRod s).map (·.2) })
    ⟨rfl, rfl, rfl, rfl, rfl, rfl⟩ (setCondition_eventOnly _ _ _ _).activates

theorem rodclassActivated_activates : Activates s (rodclassActivated s) := by
  have sums : Activates s (recomputeSums s) := ⟨rfl, rfl, rfl, rfl, rfl, rfl⟩
  exact (sums.trans (recomputeFatigue_activates _)).trans (stringChange_moves _).activates

theorem statusRestarted_activates (v : State) (n : Nat) :
    Activates v (v.setLine { v.line with statusTimerStart := n }) := ⟨rfl, rfl, rfl, rfl, rfl, rfl⟩

theorem settingsActivated_activates : Activates s (settingsActivated s) := by
  have calm := ((depthSettings_calm s).trans (recomputeFlow_calm _)).trans (pumpingChanged_calm _)
  exact calm.activates.trans (statusRestarted_activates _ _)

/-- Each owner applies its newly active copy (R195). -/
theorem applyTable_activates (t : TableNo) (old : List Page) : Activates s (applyTable t old s) := by
  unfold applyTable
  split
  · exact channelActivated_activates s old
  · exact routeActivated_activates s
  · exact (refindSegment_calm s).activates
  · exact rodclassActivated_activates s
  · exact settingsActivated_activates s
  · exact Activates.refl s

/-- PROFILE, CLASSIFY, FATIGUE and TARIFF take effect by being read. -/
theorem applyTable_read {t : TableNo} (h : t = 2 ∨ t = 5 ∨ t = 6 ∨ t = 7) (old : List Page) : applyTable t old s = s := by
  obtain rfl | rfl | rfl | rfl := h <;> rfl

end

/-! ## The checks of ACTIVATE in their order -/

section
variable {f : Frame} {rest : List Frame} {s : State} {w : Word} {t : TableNo}

/-- The lowest page that is not loaded (R195). -/
theorem missingPage_eq {x : Table} {p : Nat} (small : p < x.pending.length) (clear : x.mask.getD p false = false)
    (lower : ∀ q < p, x.mask.getD q false = true) : missingPage x = some p := by
  rw [missingPage, Table.pageCount, List.find?_range_eq_some]
  exact ⟨by rw [clear]; rfl, List.mem_range.2 small, fun q below => by rw [lower q below]; rfl⟩

theorem missingPage_eq_none {x : Table} (all : ∀ p < x.pending.length, x.mask.getD p false = true) :
    missingPage x = none := by
  rw [missingPage, Table.pageCount, List.find?_eq_none]
  intro p mem
  rw [all p (List.mem_range.1 mem)]
  decide

theorem activateFault_deferred (tariff : t = 7) (deferred : s.bill.deferred = true) :
    activateFault t s = some (Reply.echo .deferred) := if_pos ⟨tariff, deferred⟩

theorem activateFault_missing {p : Nat} (free : ¬(t = 7 ∧ s.bill.deferred = true)) (inactive : s.tables[t].active = none)
    (missing : missingPage s.tables[t] = some p) :
    activateFault t s = some (Reply.values .incomplete [w16 p]) := by
  have absent : isActive s t = false := by rw [isActive, activeCopy, inactive]; rfl
  rw [activateFault, if_neg (show ¬(t = tTariff ∧ _) from free), absent, missing]
  rfl

theorem activateFault_loaded (free : ¬(t = 7 ∧ s.bill.deferred = true))
    (loaded : s.tables[t].active ≠ none ∨ ∀ p < s.tables[t].pending.length, s.tables[t].mask.getD p false = true) :
    activateFault t s = (checkTable t s.tables[t].pending).map fun x => Reply.values x.1 [w16 x.2] := by
  have missing : (if isActive s t then none else missingPage s.tables[t]) = none := by
    obtain active | all := loaded
    · rw [isActive, activeCopy, Option.isSome_iff_ne_none.2 active]
      rfl
    · rw [missingPage_eq_none all, ite_self]
  rw [activateFault, if_neg (show ¬(t = tTariff ∧ _) from free), missing]

theorem activateBody_large (one : f.values = [w]) (large : 8 < w.toNat) :
    activateBody f s = (s, some (Reply.values .badTable [w])) := by
  have is : f.val 0 = w.toNat := by rw [Frame.val, one]; rfl
  rw [activateBody, is, tableNo_eq_none large]
  simp [w16]

theorem activateBody_fault (one : f.values = [w]) (names : w.toNat = t.val) {r : Reply}
    (fault : activateFault t s = some r) : activateBody f s = (s, some r) := by
  have is : f.val 0 = t.val := by rw [Frame.val, one]; exact names
  rw [activateBody, is, tableNo_val]
  dsimp only
  rw [fault]

theorem activateBody_passed (one : f.values = [w]) (names : w.toNat = t.val) (fault : activateFault t s = none) :
    activateBody f s = if t = tTariff ∧ s.bill.job = .opened then
        (s.setBill { s.bill with deferred := true }, some (Reply.echo .deferred))
      else (applyTable t (activePages s t) (activateTable t s), some (Reply.echo .ok)) := by
  have is : f.val 0 = t.val := by rw [Frame.val, one]; exact names
  rw [activateBody, is, tableNo_val]
  dsimp only
  rw [fault]

/-- An ACTIVATE whose answer makes nothing wait. -/
theorem exec_activate_answered {r : Reply} {u : State} (asks : Asks s 3 f rest) (one : f.values = [w])
    (job : s.bill.job ≠ .ending) (body : activateBody f (taken rest s) = (taken rest u, some r))
    (waits : SameWaits s u) :
    exec .activate s = .next (answered f rest r.code.num (r.results.getD [w]) u) := by
  rw [← echo_of_values one]
  exact congrArg Host.Outcome.next (admitted_takeRequest (body := activateBody) (kind := (· == 3))
    (countFits := (· == 1)) (whileEnding := false) asks rfl (by simp [one]) (.inl job) body waits)

/-- The table store with a table's pending copy active and its mask clear (R195). -/
def activatedTables (t : TableNo) (s : State) : Vector Table 9 :=
  s.tables.set t { s.tables[t] with
    active := some s.tables[t].pending, mask := List.replicate s.tables[t].pending.length false }

/-- An ACTIVATE that is carried out (R195). -/
theorem exec_activate_applied (asks : Asks s 3 f rest) (one : f.values = [w]) (job : s.bill.job ≠ .ending)
    (body : activateBody f (taken rest s) =
      (applyTable t (activePages s t) (activateTable t (taken rest s)), some (Reply.echo .ok))) :
    ∃ u, exec .activate s = .next u ∧ Answer u f rest 0 [w] ∧ u.tables = activatedTables t s ∧
      u.bill.job = s.bill.job ∧ u.rod.string = s.rod.string ∧ u.rod.table = s.rod.table ∧
      s.line.records <+: u.line.records := by
  have run : exec .activate s = .next (admitted s (replied f (Reply.echo .ok)
      (applyTable t (activePages s t) (activateTable t (taken rest s))))) :=
    congrArg (Host.Outcome.next ∘ admitted s) (takeRequest_replied (body := activateBody) (kind := (· == 3))
      (countFits := (· == 1)) (whileEnding := false) asks rfl (by simp [one]) (.inl job) body)
  have applied := applyTable_activates (activateTable t (taken rest s)) t (activePages s t)
  have ends := admitted_admits s
    (replied f (Reply.echo .ok) (applyTable t (activePages s t) (activateTable t (taken rest s))))
  refine ⟨_, run, ?_, ends.tables.trans applied.tables, ?_, ?_, ?_, applied.records ▸ ends.grows⟩
  · have answer := replied_answer (f := f) (r := Reply.echo .ok) applied.requests
    rw [show (Reply.echo .ok).results.getD (echo f) = [w] from echo_of_values one] at answer
    exact ⟨by rw [ends.line]; exact answer.1, by rw [ends.line]; exact answer.2⟩
  · exact (congrArg BillState.job ends.bill).trans applied.job
  · exact (congrArg RodState.string ends.rod).trans applied.string
  · exact (congrArg RodState.table ends.rod).trans applied.table

/-- Settles O29. -/
theorem activateTakesEffect : Obligations.ActivateTakesEffect := by
  unfold Obligations.ActivateTakesEffect
  intro s f rest w asks one job
  have refused {t : TableNo} {r : Reply} (names : w.toNat = t.val) (fault : activateFault t s = some r) :
      exec .activate s = .next (answered f rest r.code.num (r.results.getD [w]) s) :=
    exec_activate_answered asks one job (activateBody_fault (s := taken rest s) one names fault) (SameWaits.refl s)
  refine ⟨fun large => ?_, fun t names => ⟨fun tariff deferred => ?_, fun free => ⟨fun p inactive small clear lower => ?_,
    fun loaded => ⟨fun c p fails => ?_, fun passes tariff opened => ?_, fun passes now => ?_⟩⟩⟩⟩
  · exact exec_activate_answered asks one job (activateBody_large (s := taken rest s) one large) (SameWaits.refl s)
  · exact refused names (activateFault_deferred tariff deferred)
  · exact refused names (activateFault_missing free inactive (missingPage_eq small clear lower))
  · exact refused names (by rw [activateFault_loaded free loaded, fails]; rfl)
  · have fault : activateFault t s = none := by rw [activateFault_loaded free loaded, passes]; rfl
    have body := (activateBody_passed (s := taken rest s) one names fault).trans
      (if_pos (show t = tTariff ∧ s.bill.job = .opened from ⟨tariff, opened⟩))
    exact exec_activate_answered (u := { s with bill := { s.bill with deferred := true } }) asks one job body
      ⟨rfl, rfl, rfl, rfl, rfl⟩
  · have fault : activateFault t s = none := by rw [activateFault_loaded free loaded, passes]; rfl
    have body := (activateBody_passed (s := taken rest s) one names fault).trans (if_neg now)
    refine ⟨exec_activate_applied asks one job body, fun read => ?_⟩
    rw [applyTable_read _ read] at body
    exact exec_activate_answered (u := { s with tables := activatedTables t s }) asks one job body
      ⟨rfl, rfl, rfl, rfl, rfl⟩

end

end Sys2Proof.Machine

/-! # Make-up and break-out completions (R22, R23, R77 to R82, R87) -/

namespace Sys2Proof.Machine

/-! ## The judging of waits with the record queue full (R23) -/

/-- RECORD_QUEUE_FULL has occurred and its record has not entered. -/
def FullSignalled (s : State) : Prop :=
  s.event.accounts[srcQueueFull].applied = true ∧ s.event.accounts[srcQueueFull].pending = true

/-- Between two states no more has happened than that waits have been judged: beside the event unit's share the list of
the judged differs. -/
structure Judges (s t : State) : Prop where
  only : EventOnly (s.setLine { s.line with judged := t.line.judged }) t
  signals : FullSignalled s → FullSignalled t

section
variable {s t u : State}

theorem occurNat_full (d : Nat) (s : State) :
    (occurNat srcQueueFull d s).event.accounts[srcQueueFull] =
      s.event.accounts[srcQueueFull].take
        { src := srcQueueFull, detail := BitVec.ofNat 32 d, applied := true } (jobTime s) :=
  (raise_account { src := srcQueueFull, detail := BitVec.ofNat 32 d, applied := true } s srcQueueFull
    (by unfold Apart; decide)).trans (if_pos rfl)

theorem fullSignalled_occurNat (d : Nat) (s : State) : FullSignalled (occurNat srcQueueFull d s) := by
  unfold FullSignalled
  rw [occurNat_full]
  exact ⟨rfl, rfl⟩

theorem EventOnly.judged (h : EventOnly s t) : t.line.judged = s.line.judged := by rw [h.line]

theorem Judges.refl (s : State) : Judges s s := ⟨EventOnly.refl s, id⟩

theorem Judges.trans (h : Judges s t) (k : Judges t u) : Judges s u :=
  ⟨EventOnly.trans (h.only.setJudged u.line.judged) k.only, k.signals ∘ h.signals⟩

/-- One wait is judged. -/
theorem judge_judges (p : Producer) (s : State) :
    Judges s (occurNat srcQueueFull p.code (s.setLine { s.line with judged := p :: s.line.judged })) := by
  have unit := occurNat_eventOnly srcQueueFull p.code (s.setLine { s.line with judged := p :: s.line.judged })
  refine ⟨?_, fun _ => fullSignalled_occurNat _ _⟩
  have judged : (occurNat srcQueueFull p.code (s.setLine { s.line with judged := p :: s.line.judged })).line.judged =
      p :: s.line.judged := unit.judged
  rw [judged]
  exact unit

theorem judgeWaits_some {n : Nat} {p : Producer} (next : unjudged s.line.judged s = some p) :
    judgeWaits (n + 1) s =
      judgeWaits n (occurNat srcQueueFull p.code (s.setLine { s.line with judged := p :: s.line.judged })) := by
  rw [judgeWaits, next]

theorem judgeWaits_none {n : Nat} (next : unjudged s.line.judged s = none) : judgeWaits n s = s := by
  cases n with
  | zero => rfl
  | succ n => rw [judgeWaits, next]

theorem judgeWaits_judges (n : Nat) : ∀ s, Judges s (judgeWaits n s) := by
  induction n with
  | zero => exact Judges.refl
  | succ n ih =>
    intro s
    cases next : unjudged s.line.judged s with
    | none => rw [judgeWaits_none next]; exact Judges.refl s
    | some p => rw [judgeWaits_some next]; exact (judge_judges p s).trans (ih _)

theorem judgeFull_judges (s : State) : Judges s (judgeFull s) := by
  unfold judgeFull
  split
  · exact judgeWaits_judges _ s
  · exact Judges.refl s

/-! ### All that waits has been judged -/

/-- The producers that have not been judged. -/
def notJudged (l : List Producer) : List Producer := admissionOrder.filter fun p => !l.contains p

theorem notJudged_cons {l : List Producer} {p : Producer} (new : p ∉ l) :
    (notJudged (p :: l)).length < (notJudged l).length := by
  have sub : List.Sublist (notJudged (p :: l)) (notJudged l) :=
    List.monotone_filter_right _ fun q h => by simp_all
  have mem : p ∈ notJudged l := List.mem_filter.2 ⟨by cases p <;> decide, by simpa using new⟩
  have gone : p ∉ notJudged (p :: l) := by simp [notJudged]
  refine lt_of_le_of_ne sub.length_le fun same => gone ?_
  rw [sub.eq_of_length same]
  exact mem

theorem unjudged_mem {l : List Producer} {p : Producer} (h : unjudged l s = some p) :
    isWaiting s p = true ∧ p ∉ l := by
  have both := List.find?_some h
  simpa using both

/-- A judging with bound enough leaves no wait unjudged. -/
theorem judgeWaits_done (n : Nat) : ∀ s, (notJudged s.line.judged).length ≤ n →
    unjudged (judgeWaits n s).line.judged (judgeWaits n s) = none := by
  induction n with
  | zero =>
    intro s few
    cases next : unjudged s.line.judged s with
    | none => exact next
    | some p =>
      have mem : p ∈ notJudged s.line.judged :=
        List.mem_filter.2 ⟨by cases p <;> decide, by simpa using (unjudged_mem next).2⟩
      exact absurd (List.length_pos_of_mem mem) (by omega)
  | succ n ih =>
    intro s few
    cases next : unjudged s.line.judged s with
    | none => rw [judgeWaits_none next]; exact next
    | some p =>
      rw [judgeWaits_some next]
      refine ih _ ?_
      have fewer := notJudged_cons (unjudged_mem next).2
      have judged : (occurNat srcQueueFull p.code
          (s.setLine { s.line with judged := p :: s.line.judged })).line.judged = p :: s.line.judged :=
        (occurNat_eventOnly srcQueueFull p.code _).judged
      rw [judged]
      omega

/-- With the record queue full nothing that waits is left unjudged. -/
theorem judgeFull_done (full : recordRoom s = 0) : unjudged (judgeFull s).line.judged (judgeFull s) = none := by
  unfold judgeFull
  rw [if_pos full]
  exact judgeWaits_done _ s (List.length_filter_le _ _)

/-- Who was judged stays so. -/
theorem judgeWaits_mono (n : Nat) : ∀ s, s.line.judged ⊆ (judgeWaits n s).line.judged := by
  induction n with
  | zero => exact fun s => List.Subset.refl _
  | succ n ih =>
    intro s
    cases next : unjudged s.line.judged s with
    | none => rw [judgeWaits_none next]; exact List.Subset.refl _
    | some p =>
      rw [judgeWaits_some next]
      refine List.Subset.trans ?_ (ih _)
      rw [(occurNat_eventOnly srcQueueFull p.code _).judged]
      exact List.subset_cons_self _ _

/-! ## The offer of a ROD record (R87) -/

theorem Judges.rod (h : Judges s t) : t.rod = s.rod := h.only.rod

theorem Judges.records (h : Judges s t) : t.line.records = s.line.records := h.only.records

theorem Judges.room (h : Judges s t) : recordRoom t = recordRoom s := by rw [recordRoom, h.records, recordRoom]

/-- Where the record queue has room nothing is judged before the end of the step. -/
theorem judgeFull_room (room : recordRoom s ≠ 0) : judgeFull s = s := if_neg room

theorem judgeFull_judged (done : unjudged s.line.judged s = none) : judgeFull s = s := by
  unfold judgeFull
  rw [judgeWaits_none done, ite_self]

/-- ROD is judged only where a ROD record waits. -/
theorem judgeWaits_rod (n : Nat) : ∀ s, s.rod.out = [] → .rod ∉ s.line.judged → .rod ∉ (judgeWaits n s).line.judged := by
  induction n with
  | zero => exact fun _ _ => id
  | succ n ih =>
    intro s out new
    cases next : unjudged s.line.judged s with
    | none => rw [judgeWaits_none next]; exact new
    | some p =>
      have other : p ≠ .rod := by
        rintro rfl
        exact absurd (unjudged_mem next).1 (by rw [not_waiting_rod.2 out]; decide)
      have unit := occurNat_eventOnly srcQueueFull p.code (s.setLine { s.line with judged := p :: s.line.judged })
      rw [judgeWaits_some next]
      refine ih _ ((congrArg RodState.out unit.rod).trans out) ?_
      rw [unit.judged]
      exact fun mem => (List.mem_cons.1 mem).elim (fun e => other e.symm) new

theorem judgeFull_rod (out : s.rod.out = []) (new : .rod ∉ s.line.judged) : .rod ∉ (judgeFull s).line.judged := by
  unfold judgeFull
  split
  · exact judgeWaits_rod _ s out new
  · exact new

/-- A ROD record that has begun to wait makes RECORD_QUEUE_FULL occur at once. -/
theorem judgeFull_signals (full : recordRoom s = 0) (waits : isWaiting s .rod = true) (new : .rod ∉ s.line.judged) :
    FullSignalled (judgeFull s) := by
  have next : unjudged s.line.judged s = some .rod := by simp [unjudged, admissionOrder, waits, new]
  unfold judgeFull
  rw [if_pos full]
  show FullSignalled (judgeWaits (4 + 1) s)
  rw [judgeWaits_some next]
  exact (judgeWaits_judges 4 _).signals (fullSignalled_occurNat _ _)

/-- The oldest ROD record enters where it fits (R87). -/
theorem admitRod_entered {r : RecordBody} (out : s.rod.out = [r]) (fit : r.frames.length ≤ recordRoom s) :
    admitRod s =
      { s with line := lineAfterEntry r.type r.frames s.line, rod := { s.rod with out := [] } } := by
  rw [← admitOne_rod out, admitRod, out]
  exact if_pos fit

/-- With no room the oldest ROD record waits on. -/
theorem admitRod_full (full : recordRoom s = 0) (frames : ∀ r ∈ s.rod.out.head?, r.frames ≠ []) : admitRod s = s := by
  unfold admitRod
  split
  · next r rest out =>
    have some : r.frames ≠ [] := frames r (by rw [out]; rfl)
    have := List.length_pos_iff.2 some
    exact if_neg (by omega)
  · rfl

variable {r : RecordBody}

theorem appendRod_room : recordRoom (appendRod r s) = recordRoom s := rfl

theorem offerRodRecord_kept (short : (judgeFull s).rod.out.length < 16) :
    offerRodRecord r s = judgeFull (admitRod (appendRod r (judgeFull s))) :=
  congrArg judgeFull (if_pos short)

theorem offerRodRecord_lost (many : ¬(judgeFull s).rod.out.length < 16) :
    offerRodRecord r s = judgeFull (occurNat srcQueueFull 257 (judgeFull s)) :=
  congrArg judgeFull (if_neg many)

/-- An offer writes the out-queue and nothing else of the rod unit. -/
theorem offerRodRecord_rod (r : RecordBody) (s : State) :
    (offerRodRecord r s).rod = { s.rod with out := (offerRodRecord r s).rod.out } := by
  by_cases short : (judgeFull s).rod.out.length < 16
  · have admitted : (admitRod (appendRod r (judgeFull s))).rod =
        { (judgeFull s).rod with out := (admitRod (appendRod r (judgeFull s))).rod.out } := by
      unfold admitRod
      split
      · split <;> rfl
      · rfl
    rw [offerRodRecord_kept short, (judgeFull_judges _).rod, admitted, (judgeFull_judges s).rod]
  · rw [offerRodRecord_lost short, (judgeFull_judges _).rod, (occurNat_eventOnly _ _ _).rod, (judgeFull_judges s).rod]

/-- A ROD record enters at once where none waits and a place is free (R23, R87). -/
theorem offerRodRecord_enters (one : r.frames.length = 1) (out : s.rod.out = []) (room : s.line.records.length < 64) :
    (offerRodRecord r s).rod.out = [] ∧
      (offerRodRecord r s).line.records = s.line.records ++ framesOf r.type s.line.serial r.frames := by
  have free : recordRoom s ≠ 0 := by rw [recordRoom]; omega
  have fit : r.frames.length ≤ recordRoom (appendRod r s) := by rw [one, appendRod_room]; omega
  have state : (appendRod r s).rod.out = [r] := by rw [appendRod, State.setRod_rod, out]; rfl
  rw [offerRodRecord_kept (by rw [(judgeFull_judges s).rod, out]; decide), judgeFull_room free,
    (judgeFull_judges _).rod, (judgeFull_judges _).records, admitRod_entered state fit]
  exact ⟨rfl, rfl⟩

/-- With the record queue full a ROD record joins the out-queue; the first there makes RECORD_QUEUE_FULL occur
(R23, R87). -/
theorem offerRodRecord_waits (one : r.frames.length = 1) (short : s.rod.out.length < 16)
    (full : 64 ≤ s.line.records.length) (frames : ∀ x ∈ s.rod.out.head?, x.frames ≠ []) :
    (offerRodRecord r s).line.records = s.line.records ∧ (offerRodRecord r s).rod.out = s.rod.out ++ [r] ∧
      (s.rod.out = [] → .rod ∉ s.line.judged → FullSignalled (offerRodRecord r s)) := by
  have closed : recordRoom s = 0 := by rw [recordRoom]; omega
  obtain ⟨v, before⟩ : ∃ v, v = judgeFull s := ⟨_, rfl⟩
  have judges : Judges s v := before ▸ judgeFull_judges s
  have queue : (appendRod r v).rod.out = s.rod.out ++ [r] := by rw [appendRod, State.setRod_rod, judges.rod]
  have stays : admitRod (appendRod r v) = appendRod r v := by
    refine admitRod_full (judges.room.trans closed) fun x head => ?_
    rw [queue] at head
    cases out : s.rod.out with
    | nil =>
      rw [out] at head
      obtain rfl : r = x := Option.some.inj head
      intro none
      rw [none] at one
      cases one
    | cons y rest =>
      rw [out] at head
      exact frames x (by rw [out]; exact head)
  have state : offerRodRecord r s = judgeFull (appendRod r v) := by
    rw [offerRodRecord_kept (by rw [(judgeFull_judges s).rod]; exact short), ← before, stays]
  refine ⟨?_, ?_, fun out new => ?_⟩
  · rw [state, (judgeFull_judges _).records]
    exact judges.records
  · rw [state, (judgeFull_judges _).rod, queue]
  · have fresh : .rod ∉ (appendRod r v).line.judged := by
      show .rod ∉ v.line.judged
      rw [before]
      exact judgeFull_rod out new
    exact state ▸ judgeFull_signals (judges.room.trans closed) (by simp [isWaiting, offeredRecord, queue]) fresh

/-- With 16 in the out-queue a ROD record is lost with RECORD_QUEUE_FULL, whose detail stays 257 where nothing else can
begin to wait (R87). -/
theorem offerRodRecord_many (many : 16 ≤ s.rod.out.length) :
    (offerRodRecord r s).rod.out = s.rod.out ∧ FullSignalled (offerRodRecord r s) ∧
      (.event ∈ s.line.judged → .status ∈ s.line.judged →
        (offerRodRecord r s).event.accounts[srcQueueFull].detail = 257) := by
  have judges := judgeFull_judges s
  have state : offerRodRecord r s = judgeFull (occurNat srcQueueFull 257 (judgeFull s)) :=
    offerRodRecord_lost (by rw [judges.rod]; omega)
  obtain ⟨v, lost⟩ : ∃ v, v = occurNat srcQueueFull 257 (judgeFull s) := ⟨_, rfl⟩
  have unit : EventOnly (judgeFull s) v := lost ▸ occurNat_eventOnly _ _ _
  have signals : FullSignalled v := lost ▸ fullSignalled_occurNat _ _
  rw [state, ← lost]
  refine ⟨?_, (judgeFull_judges v).signals signals, fun event status => ?_⟩
  · rw [(judgeFull_judges v).rod, unit.rod, judges.rod]
  · have settled : judgeFull v = v := by
      by_cases full : recordRoom s = 0
      · refine judgeFull_judged (List.find?_eq_none.2 fun p _ both => ?_)
        obtain ⟨waits, new⟩ := Bool.and_eq_true_iff.1 both
        have unseen : p ∉ (judgeFull s).line.judged := by
          rw [unit.judged] at new
          simpa using new
        have earlier : s.line.judged ⊆ (judgeFull s).line.judged := by
          unfold judgeFull
          rw [if_pos full]
          exact judgeWaits_mono _ s
        have other : p ≠ .event ∧ p ≠ .status :=
          ⟨fun e => unseen (earlier (e ▸ event)), fun e => unseen (earlier (e ▸ status))⟩
        have before : isWaiting (judgeFull s) p = true := by
          have same := offered_congr unit.sameUnits.offers other.1 other.2
          rw [← waits, isWaiting, isWaiting, same]
        exact absurd (List.find?_eq_none.1 (judgeFull_done full) p (by cases p <;> decide))
          (by simpa [before] using unseen)
      · refine judgeFull_room ?_
        have room : recordRoom v = recordRoom s := by
          rw [recordRoom, unit.records, judges.records, recordRoom]
        rw [room]
        exact full
    rw [settled, lost, occurNat_full]
    rfl

end

end Sys2Proof.Machine

/-! # The pop of a break-out (R80 to R82) -/

namespace Sys2Proof.Machine

section
variable {s t : State}

theorem Moves.setRod (h : Moves s t) (x : RodState) : Moves (s.setRod x) (t.setRod x) :=
  ⟨h.now, h.line, h.channels, rfl, h.gov, h.tables, h.bill, h.accounts⟩

theorem Moves.records (h : Moves s t) : t.line.records = s.line.records := by rw [h.line]

theorem Moves.serial (h : Moves s t) : t.line.serial = s.line.serial := by rw [h.line]

theorem Moves.judged (h : Moves s t) : t.line.judged = s.line.judged := by rw [h.line]

theorem evalFatigue_moves (s : State) : Moves s (evalFatigue s) := Moves.setCondition s _ _ (by decide)

theorem recomputeFatigue_moves (h : Moves (s.setRod t.rod) t) :
    Moves (s.setRod (recomputeFatigue t).rod) (recomputeFatigue t) := by
  rw [recomputeFatigue_rod]
  exact (h.setRod { t.rod with fatigueLimit := (limitingRod t).map (·.2) }).trans (evalFatigue_moves _)

/-- What follows a change of the rod unit in the unit itself: the fatigue limit, and the candidate cleared. -/
theorem afterUnit_moves (h : Moves (s.setRod t.rod) t) :
    Moves (s.setRod (setRodCandidate none (recomputeFatigue t)).rod) (setRodCandidate none (recomputeFatigue t)) :=
  (recomputeFatigue_moves h).setRod _

theorem retireOccurrence_moves (x : Rod) (s : State) : Moves s (retireOccurrence x s) :=
  Moves.ite (Moves.occurNat s _ (by decide)) (Moves.refl s)

theorem retireBilling_moves (x : Rod) (s : State) : Moves s (retireBilling x s) :=
  Moves.ite (Moves.ite (accrue_moves s _ _ _) (Moves.refl s)) (Moves.refl s)

theorem Moves.rod_of {x : RodState} (h : Moves (s.setRod x) t) : t.rod = x := h.rod

/-- What an offer says of the out-queue and the record queue, in terms of the state before the move of the string. -/
theorem offerRodRecord_afterMove {x : RodState} {y : RecordBody} (h : Moves (s.setRod x) t) (out : x.out = s.rod.out)
    (type : y.type = 1) (one : y.frames.length = 1) :
    (s.rod.out = [] → s.line.records.length < 64 →
      (offerRodRecord y t).rod.out = [] ∧
        ∃ words, (offerRodRecord y t).line.records = s.line.records ++ framesOf 1 s.line.serial [words]) ∧
    (s.rod.out.length < 16 → 64 ≤ s.line.records.length → (∀ z ∈ s.rod.out.head?, z.frames ≠ []) →
      (offerRodRecord y t).line.records = s.line.records ∧
        (∃ z : RecordBody, z.type = 1 ∧ z.frames.length = 1 ∧ (offerRodRecord y t).rod.out = s.rod.out ++ [z]) ∧
        (s.rod.out = [] → .rod ∉ s.line.judged → Stands srcQueueFull true s (offerRodRecord y t))) ∧
    (16 ≤ s.rod.out.length → (offerRodRecord y t).rod.out = s.rod.out ∧
      Stands srcQueueFull true s (offerRodRecord y t) ∧
      (.event ∈ s.line.judged → .status ∈ s.line.judged →
        (offerRodRecord y t).event.accounts[srcQueueFull].detail = 257)) := by
  have queue : t.rod.out = s.rod.out := (congrArg RodState.out h.rod_of).trans out
  have records : t.line.records = s.line.records := h.records
  have serial : t.line.serial = s.line.serial := h.serial
  have judged : t.line.judged = s.line.judged := h.judged
  rw [← queue, ← records, ← serial, ← judged]
  refine ⟨fun empty room => ?_, fun short full frames => ?_, fun many => ?_⟩
  · obtain ⟨gone, entered⟩ := offerRodRecord_enters one empty room
    obtain ⟨words, single⟩ := List.length_eq_one_iff.1 one
    exact ⟨gone, words, by rw [entered, type, single]⟩
  · obtain ⟨same, joined, signals⟩ := offerRodRecord_waits (r := y) one short full frames
    refine ⟨same, ⟨y, type, one, joined⟩, fun empty new => ?_⟩
    obtain ⟨applied, pending⟩ := signals empty new
    exact ⟨applied, .inl pending⟩
  · obtain ⟨same, ⟨applied, pending⟩, detail⟩ := offerRodRecord_many (r := y) many
    exact ⟨same, ⟨applied, .inl pending⟩, detail⟩

variable {r x : Rod}

/-- A pop in the unit writes the rod unit, and what it occurs and reports is the event unit's. -/
theorem popInUnit_moves (r x : Rod) (s : State) : Moves (s.setRod (popInUnit r x s).rod) (popInUnit r x s) := by
  have unstack : Moves (s.setRod (updateRod r.tag (fun _ => x) (unstackTag s)).rod) (unstacked r x s) :=
    retireOccurrence_moves x (updateRod r.tag (fun _ => x) (unstackTag s))
  exact afterUnit_moves (t := subSums r (unstacked r x s)) (unstack.setRod (subSums r (unstacked r x s)).rod)

/-- The state in which a popped rod's ROD record is offered (R81, R86). -/
def popped (r : Rod) (s : State) : State :=
  let x := leaveString s r
  let s1 := popInUnit r x s
  retireBilling x (pitAdjustment (-(steelTerm s1 r : Int)) (rodMoveNotice (-(r.length : Int)) s1))

theorem popped_moves (r : Rod) (s : State) : Moves (s.setRod (popInUnit r (leaveString s r) s).rod) (popped r s) :=
  (((popInUnit_moves r (leaveString s r) s).trans (rodMoveNotice_moves _ _)).trans (pitAdjustment_moves _ _)).trans
    (retireBilling_moves _ _)

theorem popRod_eq (r : Rod) (s : State) :
    popRod r s = offerRodRecord (rodRecord (leaveString s r) 1 (s.rod.string.length - 1) 0 (popped r s)) (popped r s) := rfl

theorem breakout_eq {below : List Nat} {tag : Nat} (string : s.rod.string = below ++ [tag])
    (known : findRod s tag = some r) : breakout s = popRod r s := by
  have top : s.rod.string.getLast?.bind (findRod s) = some r := by
    rw [string, List.getLast?_concat, Option.bind_some, known]
  rw [breakout, top]

section
variable {x y : RodState} {out : List RecordBody} (h : x = { y with out := out })
include h

theorem table_of_out : x.table = y.table := by rw [h]

theorem string_of_out : x.string = y.string := by rw [h]

theorem candidate_of_out : x.candidate = y.candidate := by rw [h]

theorem valid_of_out : x.valid = y.valid := by rw [h]

theorem length_of_out : x.length = y.length := by rw [h]

end

/-- The rod unit after a break-out but for the out-queue. -/
theorem popRod_rod (r : Rod) (s : State) :
    (popRod r s).rod = { (popInUnit r (leaveString s r) s).rod with out := (popRod r s).rod.out } := by
  have offered {x : RodState} {u : State} (y : RecordBody) (h : u.rod = x) :
      (offerRodRecord y u).rod = { x with out := (offerRodRecord y u).rod.out } := h ▸ offerRodRecord_rod y u
  rw [popRod_eq]
  exact offered _ (popped_moves r s).rod_of

theorem findRod_popRod (known : findRod s r.tag = some r) (n : Nat) :
    findRod (popRod r s) n = if n = r.tag then some (leaveString s r) else findRod s n := by
  rw [findRod_congr (table_of_out (popRod_rod r s)), findRod_popInUnit (leaveString_tag s r) known]

theorem popInUnit_valid (r x : Rod) (s : State) : (popInUnit r x s).rod.valid = s.rod.valid ∧
    (popInUnit r x s).rod.out = s.rod.out := by
  rw [popInUnit_rod]
  show (unstacked r x s).rod.valid = _ ∧ (unstacked r x s).rod.out = _
  rw [unstacked_rod]
  exact ⟨rfl, rfl⟩

/-- Settles O36. -/
theorem breakoutPopsTopRod : Obligations.BreakoutPopsTopRod := by
  unfold Obligations.BreakoutPopsTopRod
  intro s below tag r string known
  dsimp only
  obtain rfl := findRod_tag known
  have offers := offerRodRecord_afterMove (popped_moves r s) (popInUnit_valid r (leaveString s r) s).2
    (y := rodRecord (leaveString s r) 1 (s.rod.string.length - 1) 0 (popped r s)) rfl rfl
  rw [← popRod_eq] at offers
  have rod := popRod_rod r s
  have found := findRod_popRod known
  rw [breakout_eq string known]
  refine ⟨(string_of_out rod).trans ?_, (candidate_of_out rod).trans (popInUnit_candidate r _ s),
    (valid_of_out rod).trans (popInUnit_valid r _ s).1, (length_of_out rod).trans (popInUnit_sums r _ s).1,
    (found r.tag).trans (if_pos rfl), fun n other => (found n).trans (if_neg other), offers⟩
  exact (popInUnit_string r _ s).trans (by rw [string, List.dropLast_concat])

end

end Sys2Proof.Machine

/-! # The push of a make-up (R77 to R79) -/

namespace Sys2Proof.Machine

section
variable {s t : State} {r : Rod}

/-! ## The push (R78, R79) -/

theorem judgeTorque_moves (r : Rod) (torque : Nat) (s : State) :
    Moves (s.setRod (judgeTorque r torque s).rod) (judgeTorque r torque s) := by
  unfold judgeTorque
  split
  · exact Moves.refl s
  · have h := Moves.occurNat (updateRod r.tag (fun x => { x with inspect := true }) s) (src := srcMakeupTorque)
      (r.tag * 65536 + torque) (by decide)
    exact h.rod ▸ h

theorem pushInUnit_moves (r : Rod) (torque : Nat) (s : State) :
    Moves (s.setRod (pushInUnit r torque s).rod) (pushInUnit r torque s) := by
  have judged : Moves (s.setRod (stacked r torque s).rod) (stacked r torque s) :=
    judgeTorque_moves r torque (updateRod r.tag (enterString s.rod.fatigueClock) (stackTag r.tag s))
  exact afterUnit_moves (t := addSums r (stacked r torque s)) (judged.setRod (addSums r (stacked r torque s)).rod)

theorem pushInUnit_valid (r : Rod) (torque : Nat) (s : State) :
    (pushInUnit r torque s).rod.valid = s.rod.valid := by
  rw [pushInUnit_rod]
  show (stacked r torque s).rod.valid = _
  rw [stacked, judgeTorque_rod]
  split <;> rfl

/-- The state after a push but for its ROD record (R78). -/
def pushed (r : Rod) (torque : Nat) (s : State) : State :=
  let s1 := pushInUnit r torque s
  pitAdjustment (steelTerm s1 r) (rodMoveNotice r.length s1)

theorem pushed_moves (r : Rod) (torque : Nat) (s : State) :
    Moves (s.setRod (pushInUnit r torque s).rod) (pushed r torque s) :=
  ((pushInUnit_moves r torque s).trans (rodMoveNotice_moves _ _)).trans (pitAdjustment_moves _ _)

/-- A push ends with the offer of its ROD record. -/
theorem pushRod_cases (r : Rod) (torque : Nat) (s : State) :
    pushRod r torque s = pushed r torque s ∨ ∃ y, pushRod r torque s = offerRodRecord y (pushed r torque s) := by
  unfold pushRod pushed
  dsimp only
  split
  · exact .inr ⟨_, rfl⟩
  · exact .inl rfl

/-- The rod unit after a push but for the out-queue. -/
theorem pushRod_rod (r : Rod) (torque : Nat) (s : State) :
    (pushRod r torque s).rod = { (pushInUnit r torque s).rod with out := (pushRod r torque s).rod.out } := by
  have unit := (pushed_moves r torque s).rod_of
  obtain none | ⟨y, offered⟩ := pushRod_cases r torque s
  · rw [none, unit]
  · rw [offered, offerRodRecord_rod y, unit]

theorem findRod_pushRod (known : findRod s r.tag = some r) (torque n : Nat) :
    findRod (pushRod r torque s) n = if n = r.tag then some (pushedRod s torque r) else findRod s n := by
  rw [findRod_congr (table_of_out (pushRod_rod r torque s)), findRod_pushInUnit known]

theorem makeup_push {torque : Nat} (candidate : s.rod.candidate = some r.tag) (known : findRod s r.tag = some r)
    (short : s.rod.string.length < 250) : makeup torque s = pushRod r torque s := by
  rw [makeup, candidate, Option.bind_some, known]
  exact if_neg (by omega)

/-! ## A make-up that pushes nothing (R77) -/

theorem setCondition_account {src q : Source} (b : Bool) (d : BitVec 32) (s : State) (apart : Apart q) (other : q ≠ src) :
    (setCondition src b d s).event.accounts[q] = s.event.accounts[q] := by
  have reported := (report_account src b s q apart).trans (if_neg other)
  have raised (v : State) : (occur src d v).event.accounts[q] = v.event.accounts[q] :=
    (raise_account _ v q apart).trans (if_neg other)
  unfold setCondition
  split
  · exact (raised _).trans reported
  · exact reported

/-- The string becomes INVALID: of the rod unit nothing but that differs, and the account of UNTRACKED_CONNECTION and the
record queue are as they were. -/
theorem invalidate_rod (s : State) : (invalidate s).rod = { s.rod with valid := false } ∧
    (invalidate s).event.accounts[srcUntracked] = s.event.accounts[srcUntracked] ∧
    (invalidate s).line.records = s.line.records := by
  have dropped (v : State) : (governDrop v).rod = v.rod ∧
      (governDrop v).event.accounts[srcUntracked] = v.event.accounts[srcUntracked] ∧
      (governDrop v).line.records = v.line.records := by
    have moves : Moves (setMode .observe v) (occurNat srcGovernDropped 0 (changeInLine .observe v)) :=
      (recomputeCandidate_moves (setMode .observe v)).trans (Moves.occurNat _ _ (by decide))
    unfold governDrop
    split
    · exact ⟨moves.rod, moves.accounts _ (.inl rfl), moves.records⟩
    · exact ⟨rfl, rfl, rfl⟩
  unfold invalidate
  split
  · have moves := stringChange_moves (governDrop (s.setRod { s.rod with valid := false }))
    obtain ⟨rod, account, records⟩ := dropped (s.setRod { s.rod with valid := false })
    exact ⟨moves.rod.trans rod, (moves.accounts _ (.inl rfl)).trans account, moves.records.trans records⟩
  · next invalid =>
    have is : s.rod.valid = false := by simpa using invalid
    exact ⟨by rw [← is], rfl, rfl⟩

theorem untrackedMakeup_facts (cause torque : Nat) (s : State) :
    (untrackedMakeup cause torque s).rod = { s.rod with candidate := none, valid := false } ∧
      cond (untrackedMakeup cause torque s) srcStringInvalid = true ∧
      Occurred srcUntracked (BitVec.ofNat 32 (cause * 65536 + torque)) true s (untrackedMakeup cause torque s) := by
  have unit := occurNat_eventOnly srcUntracked (cause * 65536 + torque) s
  obtain ⟨v, is⟩ : ∃ v, v = occurNat srcUntracked (cause * 65536 + torque) s := ⟨_, rfl⟩
  have occurred : Occurred srcUntracked (BitVec.ofNat 32 (cause * 65536 + torque)) true s v :=
    is ▸ occurred_occurNat (u := s) _ (by decide) (SameAccount.refl _ s) rfl
  rw [← is] at unit
  have state : untrackedMakeup cause torque s =
      setCondition srcStringInvalid true (BitVec.ofNat 32 cause) (invalidate (setRodCandidate none v)) := by
    rw [is]
    rfl
  obtain ⟨rod, account, records⟩ := invalidate_rod (setRodCandidate none v)
  obtain ⟨w, after⟩ : ∃ w, w = invalidate (setRodCandidate none v) := ⟨_, rfl⟩
  rw [← after] at rod account records state
  have reported := setCondition_eventOnly srcStringInvalid true (BitVec.ofNat 32 cause) w
  have reportedAccount := setCondition_account (q := srcUntracked) true (BitVec.ofNat 32 cause) w
    (by unfold Apart; decide) (show srcUntracked ≠ srcStringInvalid by decide)
  rw [state]
  refine ⟨reported.rod.trans (rod.trans ?_), (setCondition_cond ..).trans (if_pos rfl), ?_⟩
  · show { v.rod with candidate := none, valid := false } = _
    rw [unit.rod]
  · have before : v.line.records = s.line.records := unit.records
    exact occurred.keep (reportedAccount.trans account) (before ▸ List.prefix_refl _)
      ((reported.records.trans records) ▸ List.prefix_refl _)

/-- Settles O37. -/
theorem makeupPushesCandidate : Obligations.MakeupPushesCandidate := by
  unfold Obligations.MakeupPushesCandidate
  refine fun s torque => ⟨fun tag r candidate known short => ?_, fun none => ?_⟩
  · dsimp only
    obtain rfl := findRod_tag known
    have rod := pushRod_rod r torque s
    have found := (findRod_pushRod known torque r.tag).trans (if_pos rfl)
    rw [makeup_push candidate known short]
    refine ⟨(string_of_out rod).trans (pushInUnit_string r torque s),
      (candidate_of_out rod).trans (pushInUnit_candidate r torque s),
      (valid_of_out rod).trans (pushInUnit_valid r torque s), (length_of_out rod).trans (pushInUnit_sums r torque s).1,
      found.trans ?_⟩
    rw [pushedRod, torqueInWindow, Bool.decide_and]
    rfl
  · dsimp only
    have state : makeup torque s = untrackedMakeup (noCandidateCause s) torque s := by
      rw [makeup, none, Option.bind_none]
    rw [state]
    obtain ⟨rod, cond, occurred⟩ := untrackedMakeup_facts (noCandidateCause s) torque s
    refine ⟨by rw [rod], by rw [rod], by rw [rod], cond, fun short => ?_⟩
    rw [noCandidateCause, if_pos short] at occurred ⊢
    simpa using occurred

end

end Sys2Proof.Machine

/-! # STRING_COMMIT (R73) -/

namespace Sys2Proof.Machine

/-! ## An admission behind a record that does not fit (R23) -/

section
variable {s t : State} {p : Producer} {r : RecordBody}

theorem admissible_of_firstOffer (offer : firstOffer s = some (p, r)) (large : recordRoom s < r.frames.length) :
    admissible s = none := by
  rw [admissible, offer]
  exact Option.filter_some_neg (by simpa using large)

theorem firstOffer_of_head? (first : (waiting s).head? = some p) (own : offeredRecord s p = some r) :
    firstOffer s = some (p, r) := by
  rw [firstOffer_eq, first, Option.bind_some, own, Option.map_some]

/-- Behind a ROD, TICKET or STRATA record that does not fit nothing enters (R23). -/
theorem admission_held (event : p ≠ .event) (status : p ≠ .status) (n : Nat) : ∀ judged s,
    firstOffer s = some (p, r) → recordRoom s < r.frames.length → EventOnly s (admission n judged s) := by
  induction n with
  | zero => exact fun _ s _ _ => EventOnly.refl s
  | succ n ih =>
    intro judged s offer large
    have closed := admissible_of_firstOffer offer large
    cases next : unjudged judged s with
    | none => rw [admission_done closed next]; exact EventOnly.refl s
    | some q =>
      have unit := occurNat_eventOnly srcQueueFull q.code s
      have back : SameOffers (occurNat srcQueueFull q.code s) s :=
        ⟨congrArg RodState.out unit.rod.symm, congrArg BillState.outBuffer unit.bill.symm,
          congrArg LagState.hold unit.lag.symm, congrArg LagState.queue unit.lag.symm⟩
      have room : recordRoom (occurNat srcQueueFull q.code s) = recordRoom s := by
        rw [recordRoom, unit.records, recordRoom]
      rw [admission_judge closed next]
      exact unit.trans (ih _ _ (firstOffer_congr back offer event status) (by rw [room]; exact large))

/-- A settled state in which a ROD record waits has no room for it. -/
theorem Settled.rod_large (settled : Settled s) {rest : List RecordBody} (out : s.rod.out = r :: rest) :
    firstOffer s = some (.rod, r) ∧ recordRoom s < r.frames.length := by
  have own : offeredRecord s .rod = some r := congrArg List.head? out
  have first : (waiting s).head? = some .rod :=
    waiting_head? (before := []) rfl (fun _ h => absurd h List.not_mem_nil) (isWaiting_of_offered own)
  exact ⟨firstOffer_of_head? first own, (settled_iff s).1 settled _ first _ own⟩

/-- The end of a step that leaves the out-queue leaves it, where no record that waited could enter. -/
theorem admitted_rodOut (settled : Settled s) (out : t.rod.out = s.rod.out) (records : t.line.records = s.line.records) :
    (admitted s t).rod.out = s.rod.out := by
  cases e : s.rod.out with
  | nil =>
    have suffix := (admitted_admits s t).out
    rw [out, e] at suffix
    exact List.suffix_nil.1 suffix
  | cons r rest =>
    obtain ⟨-, large⟩ := settled.rod_large e
    have own : offeredRecord t .rod = some r := congrArg List.head? (out.trans e)
    have first : (waiting t).head? = some .rod :=
      waiting_head? (before := []) rfl (fun _ h => absurd h List.not_mem_nil) (isWaiting_of_offered own)
    have held := admission_held (by decide) (by decide) admissionBound (waiting s) t (firstOffer_of_head? first own)
      (by rw [recordRoom, records]; exact large)
    unfold admitted
    split
    · exact out.trans e
    · exact (congrArg RodState.out held.rod).trans (out.trans e)

end

/-! ## The checks of a commit -/

section
variable {s : State}

/-- The lowest page of a load that is not loaded (R73). -/
theorem missingLoadPage_page {h : LoadHeader} {p : Fin 21} (header : s.rod.loadHeader = some h)
    (holds : 12 * p.val < h.count) (absent : s.rod.loadPages[p] = none)
    (lower : ∀ q : Fin 21, q < p → s.rod.loadPages[q] ≠ none) : missingLoadPage s = some (p.val + 1) := by
  have found : ((List.range 21).find? fun p => decide (12 * p < h.count) && ((s.rod.loadPages[p]?.bind id).isNone)) =
      some p.val := by
    rw [List.find?_range_eq_some]
    refine ⟨?_, List.mem_range.2 p.isLt, fun q below => ?_⟩
    · have page : s.rod.loadPages[p.val]? = some none :=
        (Vector.getElem?_eq_getElem p.isLt).trans (congrArg some absent)
      rw [page, decide_eq_true holds]
      rfl
    · have small : q < 21 := below.trans p.isLt
      have page : s.rod.loadPages[q]? = some (s.rod.loadPages[q]'small) := Vector.getElem?_eq_getElem small
      have loaded : (s.rod.loadPages[q]'small).isNone = false := by
        rw [← Bool.not_eq_true, Option.isNone_iff_eq_none]
        exact lower ⟨q, small⟩ below
      rw [page, Option.bind_some, id_eq, loaded, Bool.and_false]
      rfl
  rw [missingLoadPage, header]
  exact congrArg (Option.map (· + 1)) found

theorem missingLoadPage_none {h : LoadHeader} (header : s.rod.loadHeader = some h)
    (loaded : ∀ p : Fin 21, 12 * p.val < h.count → s.rod.loadPages[p] ≠ none) : missingLoadPage s = none := by
  rw [missingLoadPage, header]
  refine congrArg (Option.map (· + 1)) (List.find?_eq_none.2 fun p mem both => ?_)
  have small := List.mem_range.1 mem
  obtain ⟨holds, absent⟩ := Bool.and_eq_true_iff.1 both
  have page : s.rod.loadPages[p]? = some (s.rod.loadPages[p]'small) := Vector.getElem?_eq_getElem small
  rw [page, Option.bind_some, id_eq, Option.isNone_iff_eq_none] at absent
  exact loaded ⟨p, small⟩ (of_decide_eq_true holds) absent

theorem slotsFault_load {n : Nat} (nodup : (loadTags s n).Nodup)
    (slots : ∀ i < n, loadSlot s i ≠ 0 ∧ ∃ r, findRod s (loadSlot s i) = some r ∧ returnPlace s r = .rack ∧
      ((rodClass s r.cls).kind ≠ 0 ∨ i = 0)) : slotsFault s [] 0 (loadTags s n) = none := by
  rw [slotsFault_eq_none_iff]
  intro k hk
  have small : k < n := by simpa [loadTags] using hk
  have tag : (loadTags s n)[k] = loadSlot s k := by simp [loadTags]
  obtain ⟨named, r, known, rack, kind⟩ := slots k small
  rw [Nat.zero_add, List.nil_append, slotFault_eq_none_iff, tag]
  refine ⟨named, r, known, fun earlier => ?_, by rw [rack]; decide, fun bit => ?_⟩
  · obtain ⟨j, hj, same⟩ := List.mem_take_iff_getElem.1 earlier
    have below : j < k := by omega
    have equal := (List.Nodup.getElem_inj_iff nodup).1 (same.trans tag.symm)
    omega
  · exact kind.elim (fun other => other bit.1) bit.2

theorem commitFault_govern (mode : s.line.mode = .govern) : commitFault s = some (Reply.echo .busy) := if_pos mode

theorem commitFault_inactive (mode : s.line.mode ≠ .govern) (inactive : isActive s tRodclass = false) :
    commitFault s = some (Reply.echo .notReady) := (if_neg mode).trans (if_pos inactive)

theorem commitFault_missing {p : Nat} (mode : s.line.mode ≠ .govern) (active : isActive s tRodclass = true)
    (missing : missingLoadPage s = some p) : commitFault s = some (Reply.values .incomplete [w16 p]) := by
  rw [commitFault, if_neg mode, active, missing]
  rfl

theorem commitFault_passed {h : LoadHeader} (mode : s.line.mode ≠ .govern) (active : isActive s tRodclass = true)
    (header : s.rod.loadHeader = some h) (missing : missingLoadPage s = none)
    (slots : slotsFault s [] 0 (loadTags s h.count) = none) : commitFault s = none := by
  rw [commitFault, if_neg mode, active, missing, header]
  exact slots

end

end Sys2Proof.Machine

/-! # The load becomes the string (R73) -/

namespace Sys2Proof.Machine

section
variable {s : State} {tags : List Nat}

/-! ## The rods returned and placed -/

theorem returnRod_moves (tag : Nat) (s : State) : Moves (s.setRod (returnRod tag s).rod) (returnRod tag s) := by
  unfold returnRod
  cases findRod s tag with
  | none => exact Moves.refl s
  | some r =>
    have h := (retireOccurrence_moves (leaveString s r) (updateRod tag (fun _ => leaveString s r) s)).trans
      (retireBilling_moves (leaveString s r) _)
    exact h.rod ▸ h

theorem returnRods_moves (l : List Nat) : ∀ s, Moves (s.setRod (returnRods l s).rod) (returnRods l s) := by
  induction l with
  | nil => exact Moves.refl
  | cons tag rest ih => exact fun s => ((returnRod_moves tag s).setRod _).trans (ih (returnRod tag s))

theorem placeRods_same (old l : List Nat) : ∀ s, placeRods old l s = s.setRod (placeRods old l s).rod := by
  induction l with
  | nil => exact fun _ => rfl
  | cons tag rest ih => exact fun s => (ih (placeRod old tag s)).trans rfl

theorem placedLoad_moves (tags : List Nat) (s : State) : Moves (s.setRod (placedLoad tags s).rod) (placedLoad tags s) := by
  have same : placedLoad tags s = (returnRods s.rod.string.reverse s).setRod (placedLoad tags s).rod :=
    placeRods_same s.rod.string tags (returnRods s.rod.string.reverse s)
  have h := (returnRods_moves s.rod.string.reverse s).setRod (placedLoad tags s).rod
  rw [← same] at h
  exact h

/-! ## The commit -/

/-- The rod unit with the load as its string, the reported STRING_INVALID being false (R70, R73). -/
def stringTaken (tags : List Nat) (s : State) : State :=
  report srcStringInvalid false ((placedLoad tags s).setRod { (placedLoad tags s).rod with string := tags, valid := true })

theorem stringTaken_facts (tags : List Nat) (s : State) :
    (stringTaken tags s).line = { s.line with
      statusDue := (stringTaken tags s).line.statusDue, injections := (stringTaken tags s).line.injections } ∧
    (stringTaken tags s).channels = s.channels ∧ (stringTaken tags s).gov = s.gov ∧
    (stringTaken tags s).tables = s.tables ∧ (stringTaken tags s).bill.outBuffer = s.bill.outBuffer ∧
    cond (stringTaken tags s) srcStringInvalid = false := by
  have moves := placedLoad_moves tags s
  have unit := report_eventOnly srcStringInvalid false
    ((placedLoad tags s).setRod { (placedLoad tags s).rod with string := tags, valid := true })
  refine ⟨?_, unit.channels.trans moves.channels, unit.gov.trans moves.gov, unit.tables.trans moves.tables,
    (congrArg BillState.outBuffer unit.bill).trans (by rw [State.setRod_bill, moves.bill]; rfl),
    (report_cond ..).trans (if_pos rfl)⟩
  refine unit.line.trans ?_
  rw [State.setRod_line, moves.line]
  rfl

/-- The load buffer is emptied. -/
def bufferEmptied (s : State) : State :=
  s.setRod { s.rod with loadHeader := none, loadPages := Vector.replicate 21 none }

theorem loadedUnit_moves (tags : List Nat) (s : State) :
    Moves ((stringTaken tags s).setRod (loadedUnit tags s).rod) (loadedUnit tags s) := by
  have write (v : State) : Moves (v.setRod (recomputeSums (setRodCandidate none v)).rod)
      (recomputeSums (setRodCandidate none v)) := Moves.refl _
  exact recomputeFatigue_moves (write (stringTaken tags s))

theorem carryOutCommit_moves (tags : List Nat) (top : Option Int) (s : State) :
    Moves (bufferEmptied (loadedUnit tags s)) (carryOutCommit tags top s) := by
  have noticed := commitNotice_moves (bufferEmptied (loadedUnit tags s)) top
  exact Moves.ite noticed (noticed.trans (stringChange_moves _))

/-- What a commit leaves of the other units. -/
theorem carryOutCommit_rest (tags : List Nat) (top : Option Int) (s : State) :
    (carryOutCommit tags top s).line = { s.line with
      statusDue := (carryOutCommit tags top s).line.statusDue
      injections := (carryOutCommit tags top s).line.injections } ∧
    (carryOutCommit tags top s).channels = s.channels ∧ (carryOutCommit tags top s).gov = s.gov ∧
    (carryOutCommit tags top s).tables = s.tables ∧ cond (carryOutCommit tags top s) srcStringInvalid = false := by
  obtain ⟨line, channels, gov, tables, -, invalid⟩ := stringTaken_facts tags s
  have unit := loadedUnit_moves tags s
  have moves := carryOutCommit_moves tags top s
  refine ⟨?_, moves.channels.trans (unit.channels.trans channels), moves.gov.trans (unit.gov.trans gov),
    moves.tables.trans (unit.tables.trans tables), ?_⟩
  · refine moves.line.trans ?_
    rw [show (bufferEmptied (loadedUnit tags s)).line = _ from unit.line, State.setRod_line, line]
  · have account := (moves.accounts srcStringInvalid (.inr rfl)).trans (unit.accounts srcStringInvalid (.inr rfl))
    exact (congrArg Account.cond account).trans invalid

/-- The rod unit after a commit. -/
theorem carryOutCommit_rod (tags : List Nat) (top : Option Int) (s : State) :
    (carryOutCommit tags top s).rod = { s.rod with
      table := (placedLoad tags s).rod.table, string := tags, valid := true, candidate := none
      length := (loadedUnit tags s).rod.length, weight := (loadedUnit tags s).rod.weight
      steel := (loadedUnit tags s).rod.steel, fatigueLimit := (loadedUnit tags s).rod.fatigueLimit
      loadHeader := none, loadPages := Vector.replicate 21 none } := by
  refine (carryOutCommit_moves tags top s).rod.trans ?_
  rw [bufferEmptied, State.setRod_rod, loadedUnit_rod]

/-! ## The request -/

variable {f : Frame} {rest : List Frame}

theorem stringCommitBody_refused {r : Reply} (fault : commitFault s = some r) : stringCommitBody f s = (s, some r) := by
  rw [stringCommitBody, fault]

theorem stringCommitBody_passed {h : LoadHeader} (fault : commitFault s = none) (header : s.rod.loadHeader = some h) :
    stringCommitBody f s = (carryOutCommit (loadTags s h.count) h.top s, some (Reply.values .ok [w16 h.count])) := by
  rw [stringCommitBody, fault, header]

theorem exec_stringCommit_refused {r : Reply} (asks : Asks s 9 f rest) (empty : f.values = [])
    (job : s.bill.job ≠ .ending) (fault : commitFault (taken rest s) = some r) :
    exec .stringCommit s = .next (answered f rest r.code.num (r.results.getD []) s) := by
  rw [show [] = echo f by rw [echo, empty]; rfl]
  exact congrArg Host.Outcome.next (admitted_takeRequest (body := stringCommitBody) (kind := (· == 9))
    (countFits := (· == 0)) (whileEnding := false) asks rfl (by simp [empty]) (.inl job)
    (stringCommitBody_refused (s := taken rest s) fault) (SameWaits.refl s))

/-- A commit that passes its checks (R73). -/
theorem exec_stringCommit_passed {h : LoadHeader} (settled : Settled s) (asks : Asks s 9 f rest) (empty : f.values = [])
    (job : s.bill.job ≠ .ending) (fault : commitFault (taken rest s) = none) (header : s.rod.loadHeader = some h)
    (known : ∀ tag ∈ loadTags s h.count, ∃ r, findRod s tag = some r) :
    ∃ t, exec .stringCommit s = .next t ∧ Answer t f rest 0 [BitVec.ofNat 16 h.count] ∧
      t.rod.string = loadTags s h.count ∧ t.rod.valid = true ∧ cond t srcStringInvalid = false ∧
      t.rod.candidate = none ∧ t.rod.loadHeader = none ∧ (∀ p : Fin 21, t.rod.loadPages[p] = none) ∧
      (∀ tag ∈ loadTags s h.count, ∃ r ∈ t.rod.table, r.tag = tag ∧ r.place = .string ∧
        r.entry = some s.rod.fatigueClock) ∧
      t.rod.fatigueClock = s.rod.fatigueClock ∧ t.rod.out = s.rod.out ∧ t.channels = s.channels ∧
      t.tables = s.tables ∧ t.gov = s.gov ∧ t.line.mode = s.line.mode := by
  obtain ⟨v, is⟩ : ∃ v, v = carryOutCommit (loadTags s h.count) h.top (taken rest s) := ⟨_, rfl⟩
  have run : exec .stringCommit s = .next (admitted s (replied f (Reply.values .ok [w16 h.count]) v)) := by
    rw [is]
    exact congrArg (Host.Outcome.next ∘ admitted s) (takeRequest_replied (body := stringCommitBody)
      (kind := (· == 9)) (countFits := (· == 0)) (whileEnding := false) asks rfl (by simp [empty]) (.inl job)
      (stringCommitBody_passed (s := taken rest s) fault header))
  obtain ⟨line, channels, gov, tables, invalid⟩ :=
    carryOutCommit_rest (loadTags s h.count) h.top (taken rest s)
  have rod := carryOutCommit_rod (loadTags s h.count) h.top (taken rest s)
  rw [← is] at line channels gov tables invalid rod
  have out : (replied f (Reply.values .ok [w16 h.count]) v).rod.out = s.rod.out := by
    show v.rod.out = _
    rw [rod]
    rfl
  have records : (replied f (Reply.values .ok [w16 h.count]) v).line.records = s.line.records := by
    show v.line.records = _
    rw [line]
    rfl
  have queue := admitted_rodOut settled out records
  have ends := admitted_admits s (replied f (Reply.values .ok [w16 h.count]) v)
  obtain ⟨t, final⟩ : ∃ t, t = admitted s (replied f (Reply.values .ok [w16 h.count]) v) := ⟨_, rfl⟩
  rw [← final] at ends queue run
  have unit : t.rod = { v.rod with out := t.rod.out } := ends.rod
  rw [rod] at unit
  have requests : v.line.requests = rest := by rw [line]; rfl
  have mode : v.line.mode = s.line.mode := by rw [line]; rfl
  refine ⟨t, run, ⟨?_, ?_⟩, by rw [unit], by rw [unit], (ends.conds srcStringInvalid).trans invalid, by rw [unit],
    by rw [unit], fun p => ?_, fun tag mem => ?_, by rw [unit]; rfl, queue, ends.channels.trans channels,
    ends.tables.trans tables, ends.gov.trans gov, ends.mode.trans mode⟩
  · rw [ends.line]
    exact requests
  · rw [ends.line]
    rfl
  · rw [unit]
    exact Vector.getElem_replicate p.isLt
  · obtain ⟨r, found⟩ := known tag mem
    obtain ⟨y, placed, string, entry⟩ := findRod_placedLoad_of_mem (s := taken rest s) mem found
    exact ⟨y, by rw [unit]; exact findRod_mem placed, findRod_tag placed, string, entry⟩

/-- Settles O35. -/
theorem stringCommitReplacesString : Obligations.StringCommitReplacesString := by
  unfold Obligations.StringCommitReplacesString
  refine fun s f rest settled asks empty job => ⟨fun mode => ?_, fun mode inactive => ?_, fun mode active =>
    ⟨fun none => ?_, fun h p header holds absent lower => ?_, fun h header small loaded nodup slots => ?_⟩⟩
  · exact exec_stringCommit_refused asks empty job (commitFault_govern (s := taken rest s) mode)
  · exact exec_stringCommit_refused asks empty job (commitFault_inactive (s := taken rest s) mode inactive)
  · exact exec_stringCommit_refused asks empty job
      (commitFault_missing (s := taken rest s) mode active
        (by rw [missingLoadPage, show (taken rest s).rod.loadHeader = _ from none]))
  · exact exec_stringCommit_refused asks empty job
      (commitFault_missing (s := taken rest s) mode active (missingLoadPage_page header holds absent lower))
  · have passed := slotsFault_load (s := taken rest s) nodup slots
    exact exec_stringCommit_passed settled asks empty job
      (commitFault_passed (s := taken rest s) mode active header (missingLoadPage_none header loaded) passed) header
      (slotsFault_none_found passed).2

end

end Sys2Proof.Machine

/-! # JOB_START and the completion of a JOB_END (R150, R152) -/

namespace Sys2Proof.Machine

section
variable {s : State} {f : Frame} {rest : List Frame}

/-! ## The checks of JOB_START -/

theorem jobStartBody_open (opened : s.bill.job = .opened) : jobStartBody f s = (s, some (Reply.echo .jobOpen)) :=
  if_pos opened

theorem jobStartBody_fault {i : Nat} (free : s.bill.job ≠ .opened) (fault : jobStartFault f = some i) :
    jobStartBody f s = (s, some (Reply.values .badValue [w16 i])) := by
  rw [jobStartBody, if_neg free, fault]

theorem jobStartBody_inactive (free : s.bill.job ≠ .opened) (fault : jobStartFault f = none)
    (inactive : isActive s tTariff = false) : jobStartBody f s = (s, some (Reply.echo .notReady)) := by
  rw [jobStartBody, if_neg free, fault]
  exact if_pos inactive

theorem jobStartBody_passed (free : s.bill.job ≠ .opened) (fault : jobStartFault f = none)
    (active : isActive s tTariff = true) : jobStartBody f s = (startJob f s, some (Reply.echo .ok)) := by
  rw [jobStartBody, if_neg free, fault]
  exact if_neg (by rw [active]; decide)

theorem exec_jobStart_refused {r : Reply} (asks : Asks s 10 f rest) (six : f.values.length = 6)
    (job : s.bill.job ≠ .ending) (body : jobStartBody f (taken rest s) = (taken rest s, some r)) :
    exec .jobStart s = .next (answered f rest r.code.num (r.results.getD (echo f)) s) :=
  congrArg Host.Outcome.next (admitted_takeRequest (body := jobStartBody) (kind := (· == 10)) (countFits := (· == 6))
    (whileEnding := false) asks rfl (by simp [six]) (.inl job) body (SameWaits.refl s))

/-! ## The job that has started -/

/-- The job, its first ticket and its first interval are open, before the segment is found and the activity taken. -/
def jobOpened (f : Frame) (s : State) : State :=
  openFirstInterval (f.val32 4) (f.val32 1)
    (openJob (f.val 0) (f.val32 1) (f.val 3) (depthJobStart (f.val32 1) s))

/-- Finding the segment again leaves the stroke rates (R94). -/
theorem refindSegment_rates (s : State) :
    (refindSegment s).circ.rate1 = s.circ.rate1 ∧ (refindSegment s).circ.rate2 = s.circ.rate2 := by
  have watch (u : State) : (segmentWatch u).circ = u.circ :=
    (pitWatch_besideInterval (evalReturnLow u)).circ.trans (setCondition_eventOnly srcReturnLow _ _ u).circ
  have event (q : Source) (d : Nat) (u : State) : (occurNat q d u).circ = u.circ := (occurNat_eventOnly q d u).circ
  unfold refindSegment
  split
  · exact ⟨rfl, rfl⟩
  · simp only [watch, apply_ite State.circ, event, ite_self]
    exact ⟨rfl, rfl⟩

/-- The job that has started and the one just opened differ in re-evaluations alone (R150). -/
theorem startJob_calm (f : Frame) (s : State) : Calm (jobOpened f s) (startJob f s) :=
  (refindSegment_calm (jobOpened f s)).trans (recomputeCandidate_calm _)

theorem startJob_rates (f : Frame) (s : State) :
    (startJob f s).circ.rate1 = s.circ.rate1 ∧ (startJob f s).circ.rate2 = s.circ.rate2 := by
  have circ : (startJob f s).circ = (refindSegment (jobOpened f s)).circ :=
    (recomputeCandidate_eventOnly (refindSegment (jobOpened f s))).circ
  rw [circ]
  exact refindSegment_rates (jobOpened f s)

theorem jobOpened_bill (f : Frame) (s : State) : (jobOpened f s).bill = { s.bill with
    job := .opened, jobNumber := f.val 0, startHole := f.val32 1, ticketNumber := f.val 3, ticketOpen := true,
    openTime := 0, openHole := f.val32 1, lastInterval := none, lines := Vector.replicate 44 TicketLine.empty } := rfl

theorem jobOpened_depth (f : Frame) (s : State) :
    (jobOpened f s).depth.hole = f.val32 1 ∧ (jobOpened f s).depth.conflict = false ∧
      (jobOpened f s).depth.jobClock = 0 ∧ (jobOpened f s).depth.clockRuns = true ∧
      (jobOpened f s).depth.secondStart = s.now := ⟨rfl, rfl, rfl, rfl, rfl⟩

/-- The other units stay as they are. -/
theorem jobOpened_units (f : Frame) (s : State) :
    (jobOpened f s).rod = s.rod ∧ (jobOpened f s).tables = s.tables ∧ (jobOpened f s).channels = s.channels ∧
      (jobOpened f s).lag = s.lag ∧ (jobOpened f s).gov = s.gov ∧ (jobOpened f s).circ = s.circ := by
  simp [jobOpened, openFirstInterval, openInterval, openJob, clearLines, depthJobStart, recomputeBits]

theorem jobOpened_interval (f : Frame) (s : State) :
    ∃ o, (jobOpened f s).interval = { current := some o, counter := f.val32 4, currentClass := 0 } ∧
      o.number = f.val32 4 ∧ o.top = f.val32 1 ∧ o.openTime = 0 ∧ o.sumT = 0 ∧ o.sumRot = 0 ∧ o.sumThrust = 0 ∧
      o.note = 0 :=
  ⟨_, rfl, rfl, rfl, rfl, rfl, rfl, rfl, rfl⟩

end

/-- The first value out of range, of the four that JOB_START checks (R150). -/
theorem jobStartFault_cases (f : Frame) :
    (f.val 0 = 0 → jobStartFault f = some 0) ∧
    (f.val 0 ≠ 0 → 2000000 < f.val32 1 → jobStartFault f = some 1) ∧
    (f.val 0 ≠ 0 → f.val32 1 ≤ 2000000 → f.val 3 = 0 → jobStartFault f = some 3) ∧
    (f.val 0 ≠ 0 → f.val32 1 ≤ 2000000 → f.val 3 ≠ 0 → f.val32 4 = 0 → jobStartFault f = some 4) ∧
    (f.val 0 ≠ 0 → f.val32 1 ≤ 2000000 → f.val 3 ≠ 0 → f.val32 4 ≠ 0 → jobStartFault f = none) := by
  refine ⟨fun a => if_pos a, fun a b => ?_, fun a b c => ?_, fun a b c d => ?_, fun a b c d => ?_⟩
  · rw [jobStartFault, if_neg a, if_pos b]
  · rw [jobStartFault, if_neg a, if_neg (by omega), if_pos c]
  · rw [jobStartFault, if_neg a, if_neg (by omega), if_neg c, if_pos d]
  · rw [jobStartFault, if_neg a, if_neg (by omega), if_neg c, if_neg d]

/-- The state of an accepted JOB_START at the end of its step: the units are those of `startJob`, and the answer waits. -/
theorem exec_jobStart_passed {s : State} {f : Frame} {rest : List Frame} (settled : Settled s) (asks : Asks s 10 f rest)
    (six : f.values.length = 6) (free : s.bill.job = .noJob) (fault : jobStartFault f = none)
    (active : isActive s tTariff = true) :
    ∃ t, exec .jobStart s = .next t ∧ Answer t f rest 0 (echo f) ∧ SameUnits (startJob f (taken rest s)) t := by
  have run := takeRequest_replied (kind := (· == 10)) (countFits := (· == 6)) (whileEnding := false) asks rfl
    (by simp [six]) (.inl (by rw [free]; decide))
    (jobStartBody_passed (f := f) (s := taken rest s) (by rw [show (taken rest s).bill.job = s.bill.job from rfl, free]; decide) fault active)
  have calm := startJob_calm f (taken rest s)
  obtain ⟨v, is⟩ : ∃ v, v = startJob f (taken rest s) := ⟨_, rfl⟩
  rw [← is] at run calm ⊢
  have requests : v.line.requests = rest := by rw [calm.line]; rfl
  have records : v.line.records = s.line.records := by rw [calm.line]; rfl
  have offers : SameOffers s v := ⟨congrArg RodState.out calm.rod, by rw [calm.bill]; rfl,
    congrArg LagState.hold calm.lag, congrArg LagState.queue calm.lag⟩
  have same := admitted_replied (f := f) (r := Reply.echo .ok) settled offers records
  exact ⟨_, congrArg (Host.Outcome.next ∘ admitted s) run, same.answer (replied_answer requests),
    replied_sameUnits.trans same.sameUnits⟩

/-- Settles O38: the checks of `jobStartBody` in their order; the accepted case is the job just opened, of which the
segment and the activity found afterwards leave what is stated. -/
theorem jobStartOpensJob : Obligations.JobStartOpensJob := by
  intro s f rest settled asks six job
  have number (i : Nat) : value f i * 65536 + value f (i + 1) = f.val32 i := rfl
  dsimp only
  rw [number 1, number 4]
  obtain ⟨jobBad, holeBad, ticketBad, numberBad, passed⟩ := jobStartFault_cases f
  refine ⟨fun opened => exec_jobStart_refused asks six job (jobStartBody_open opened), fun free => ?_⟩
  have notOpen : s.bill.job ≠ .opened := by rw [free]; decide
  have refused {i : Nat} (fault : jobStartFault f = some i) :
      exec .jobStart s = .next (answered f rest 7 [w16 i] s) :=
    exec_jobStart_refused asks six job (jobStartBody_fault (s := taken rest s) notOpen fault)
  refine ⟨fun a => refused (jobBad a), fun a b => refused (holeBad a b), fun a b c => refused (ticketBad a b c),
    fun a b c d => refused (numberBad a b c d), fun a b c d inactive => ?_, fun a b c d active => ?_⟩
  · exact exec_jobStart_refused asks six job
      (jobStartBody_inactive (s := taken rest s) notOpen (passed a b c d) inactive)
  · obtain ⟨t, run, answer, units⟩ := exec_jobStart_passed settled asks six free (passed a b c d) active
    have calm := startJob_calm f (taken rest s)
    obtain ⟨rate1, rate2⟩ := startJob_rates f (taken rest s)
    obtain ⟨o, opened, isNumber, top, openTime, sumT, sumRot, sumThrust, note⟩ := jobOpened_interval f (taken rest s)
    obtain ⟨v, is⟩ : ∃ v, v = startJob f (taken rest s) := ⟨_, rfl⟩
    rw [← is] at calm rate1 rate2 units
    have interval : v.interval.counter = f.val32 4 ∧ v.interval.currentClass = 0 ∧
        (v.interval.current = some o ∨ v.interval.current = some { o with loss := true }) := by
      rcases calm.interval with i | i <;> rw [i, opened] <;> simp
    obtain ⟨counter, class0, current⟩ := interval
    have bill := calm.bill.trans (jobOpened_bill f (taken rest s))
    obtain ⟨hole, conflict, clock, runs, second⟩ := jobOpened_depth f (taken rest s)
    obtain ⟨rod, tables, channels, lag, gov, circ⟩ := jobOpened_units f (taken rest s)
    refine ⟨t, run, answer, units.bill.trans bill, ?_, ?_, ?_, ?_, ?_, ?_, ?_, ?_, units.rod.trans (calm.rod.trans rod),
      units.tables.trans (calm.tables.trans tables), units.channels.trans (calm.channels.trans channels),
      units.lag.trans (calm.lag.trans lag), units.gov.trans (calm.gov.trans gov), ?_, ?_, ?_⟩
    · rw [units.depth, calm.hole, hole]
    · rw [units.depth, calm.conflict, conflict]
    · rw [units.depth, calm.jobClock, clock]
    · rw [units.depth, calm.clockRuns, runs]
    · rw [units.depth, calm.secondStart, second]; rfl
    · rw [units.interval]; exact counter
    · rw [units.interval]; exact class0
    · rw [units.interval]
      rcases current with c | c
      · exact ⟨o, c, isNumber, top, openTime, sumT, sumRot, sumThrust, note⟩
      · exact ⟨_, c, isNumber, top, openTime, sumT, sumRot, sumThrust, note⟩
    · rw [units.circ, calm.pumped, circ]; rfl
    · rw [units.circ]; exact rate1
    · rw [units.circ]; exact rate2

/-! ## The completion of a JOB_END (R152) -/

section
variable {s : State}

/-- What the end of a job brings to the pit balance: besides it the event unit's share and the interval unit alone
differ (R102, R103). -/
theorem pitJobEnd_besideInterval (s : State) : ∃ c, BesideInterval (s.setCirc c) (pitJobEnd s) := by
  have rest (x : State) : BesideInterval x (setPitLoss false (setPitGain false x)) :=
    (setPitGain_eventOnly false x).besideInterval.trans (setPitLoss_besideInterval _ _)
  have reported (b : Bool) (d : BitVec 32) : BesideInterval (pitAtRest s)
      (setCondition srcBalanceSuspended b d (setPitLoss false (setPitGain false (pitAtRest s)))) :=
    (rest _).trans (setCondition_eventOnly _ _ _ _).besideInterval
  unfold pitJobEnd
  split
  · split
    · exact ⟨_, pitBaseline_besideInterval _ s⟩
    · split
      · exact ⟨_, reported true _⟩
      · exact ⟨s.circ, (EventOnly.refl s).besideInterval⟩
  · exact ⟨_, reported false 0⟩

theorem pitJobEnd_depth (s : State) : (pitJobEnd s).depth = s.depth := by
  obtain ⟨c, h⟩ := pitJobEnd_besideInterval s
  exact h.depth

/-- The job has ended for the billing, the depth and the interval unit, before the pit balance hears of it. -/
def jobOver (s : State) : State :=
  intervalClear (s.setBill { s.bill with job := .noJob } |>.setDepth { s.depth with clockRuns := false })

theorem completeJobEnd_facts (w : EndingWatch) (s : State) :
    (completeJobEnd w s).bill = { s.bill with
      job := .noJob, jobNumber := 0, ticketNumber := 0, ending := none, lines := Vector.replicate 44 TicketLine.empty } ∧
    (completeJobEnd w s).interval = { current := none, counter := 0, currentClass := 0 } ∧
    (completeJobEnd w s).depth = { s.depth with clockRuns := false } ∧
    (∃ d i, (completeJobEnd w s).line =
      { s.line with statusDue := d, injections := i, completion := some (completionFrame w) }) ∧
    (completeJobEnd w s).rod = s.rod ∧ (completeJobEnd w s).lag = s.lag ∧ (completeJobEnd w s).channels = s.channels ∧
    (completeJobEnd w s).tables = s.tables ∧ (completeJobEnd w s).circ.pumped = s.circ.pumped := by
  have calm := pitJobEnd_calm (jobOver s)
  have depth := pitJobEnd_depth (jobOver s)
  obtain ⟨v, is⟩ : ∃ v, v = pitJobEnd (jobOver s) := ⟨_, rfl⟩
  have run : completeJobEnd w s = ((clearLines v).setBill
      { (clearLines v).bill with jobNumber := 0, ticketNumber := 0, ending := none }).setLine
      { v.line with completion := some (completionFrame w) } := by rw [is]; rfl
  rw [← is] at calm depth
  have interval : v.interval = { current := none, counter := 0, currentClass := 0 } := by
    rcases calm.interval with h | h <;> exact h
  have line : ∃ d i, v.line = { s.line with statusDue := d, injections := i } := ⟨_, _, calm.line⟩
  obtain ⟨d, i, line⟩ := line
  have bill : v.bill = { s.bill with job := .noJob } := calm.bill
  rw [run]
  refine ⟨?_, interval, depth, ⟨d, i, ?_⟩, calm.rod, calm.lag, calm.channels, calm.tables, calm.pumped⟩
  · simp [clearLines, bill]
  · simp [clearLines, line]

theorem endingDone_of {e : EndingWatch} (job : s.bill.job = .ending) (out : s.bill.outBuffer = none)
    (watch : s.bill.ending = some e) (lag : e.lagDone = true) : endingDone s = some e := by
  rw [endingDone, if_pos ⟨job, out⟩, watch]
  exact Option.filter_some_pos lag

theorem endingDone_eq_none (h : s.bill.job ≠ .ending ∨ s.bill.outBuffer ≠ none ∨ s.bill.ending = none ∨
    (∃ e, s.bill.ending = some e ∧ e.lagDone = false)) : endingDone s = none := by
  unfold endingDone
  split
  · next now =>
    rcases h with h | h | h | ⟨e, h, lag⟩
    · exact absurd now.1 h
    · exact absurd now.2 h
    · rw [h]; rfl
    · rw [h]; exact Option.filter_some_neg (by rw [lag])
  · rfl

end

/-- Settles O40: what `completeJobEnd` leaves is left at the end of the step, since it offers no record. -/
theorem jobEndCompletes : Obligations.JobEndCompletes := by
  intro s
  refine ⟨fun e settled job out watch lag => ?_, fun h => ?_⟩
  · have run : exec .jobEndCompletion s = .next (admitted s (completeJobEnd e s)) := by
      show execJobEndCompletion s = _
      rw [execJobEndCompletion, endingDone_of job out watch lag]
    obtain ⟨bill, interval, depth, ⟨d, i, line⟩, rod, lagUnit, channels, tables, pumped⟩ := completeJobEnd_facts e s
    obtain ⟨v, is⟩ : ∃ v, v = completeJobEnd e s := ⟨_, rfl⟩
    rw [← is] at run bill interval depth line rod lagUnit channels tables pumped
    have offers : SameOffers s v :=
      ⟨congrArg RodState.out rod, by rw [bill], congrArg LagState.hold lagUnit, congrArg LagState.queue lagUnit⟩
    have same := admitted_sameRecords settled offers (by rw [line])
    have units := same.sameUnits
    refine ⟨_, run, units.bill.trans bill, units.interval.trans interval, units.depth.trans depth, ?_, ?_, ?_,
      units.rod.trans rod, units.lag.trans lagUnit, units.channels.trans channels, units.tables.trans tables, ?_⟩
    · rw [same.1]; dsimp only; rw [line]; rfl
    · rw [same.1]; dsimp only; rw [line]
    · rw [same.1]; dsimp only; rw [line]
    · rw [units.circ, pumped]
  · show execJobEndCompletion s = _
    rw [execJobEndCompletion, endingDone_eq_none h]

end Sys2Proof.Machine

/-! # The CAB transmitter (R18) -/

namespace Sys2Proof.Machine

section
variable {s t : State}

/-! ## What an admission leaves -/

/-- Records that enter differ from what was in what `Admits` leaves open. -/
theorem Admits.same (h : Admits s t) : t = { s with
    event := t.event, lag := t.lag
    rod := { s.rod with out := t.rod.out }
    bill := { s.bill with outBuffer := t.bill.outBuffer, ending := t.bill.ending }
    line := { s.line with
      statusDue := t.line.statusDue, injections := t.line.injections, records := t.line.records
      serial := t.line.serial, highWater := t.line.highWater } } := by
  have ⟨now, pending, order, channels, depth, circ, interval, gov, tables, line, rod, bill, _, _, _, _, _, _, _, _, _,
    _, _, _, _⟩ := h
  clear h
  cases s; cases t
  simp only at *
  subst now pending order channels depth circ interval gov tables
  rw [State.mk.injEq]
  exact ⟨rfl, rfl, rfl, line, rfl, rfl, rod, rfl, rfl, rfl, bill, rfl, rfl, rfl⟩

/-- With no ROD record waiting a ticket in the out-buffer is the first to enter (R23). -/
theorem waiting_head?_ticket {r : RecordBody} (out : s.rod.out = []) (ticket : s.bill.outBuffer = some r) :
    (waiting s).head? = some .ticket :=
  waiting_head? (before := [.rod]) rfl (fun p hp => by
      obtain rfl := List.mem_singleton.1 hp
      exact not_waiting_rod.2 out)
    (isWaiting_of_offered (r := r) ticket)

/-- A first ticket that fits enters behind what the queue holds (R22, R23). -/
theorem admission_ticket {r : RecordBody} (n : Nat) (judged : List Producer) (out : s.rod.out = [])
    (ticket : s.bill.outBuffer = some r) (fits : s.line.records.length + r.frames.length ≤ 64) :
    s.line.records ++ framesOf r.type s.line.serial r.frames <+: (admission (n + 1) judged s).line.records ∧
      (admission (n + 1) judged s).bill.outBuffer = none := by
  have can : admissible s = some (.ticket, r) :=
    admissible_of_head? (waiting_head?_ticket out ticket) ticket (by rw [recordRoom]; omega)
  have admits := admission_admits n (judged.erase .ticket) (admitOne .ticket r s)
  have entered := admitOne_ticket (s := s) r
  rw [admission_admit can]
  refine ⟨?_, ?_⟩
  · have grows := admits.grows
    rw [congrArg (fun u => u.line.records) entered] at grows
    exact grows
  · rcases admits.ticket with h | h
    · rw [h, entered]
    · exact h

/-! ## The claims on the transmitter -/

theorem exec_cabTransmitBegin_down (down : s.line.cabLink.up = false) : exec .cabTransmitBegin s = .next s := by
  show execCabTransmitBegin s = _
  rw [execCabTransmitBegin, down]

theorem exec_cabTransmitBegin_claim {c : CabClaim} (up : s.line.cabLink.up = true) (claim : cabClaim s = some c) :
    exec .cabTransmitBegin s = .next (beginCab c s) := by
  show execCabTransmitBegin s = _
  rw [execCabTransmitBegin, up, claim]

theorem exec_cabTransmitBegin_idle (claim : cabClaim s = none) : exec .cabTransmitBegin s = .next s := by
  show execCabTransmitBegin s = _
  rw [execCabTransmitBegin, claim]
  cases s.line.cabLink.up <;> rfl

theorem cabClaim_response {f : Frame} (response : s.line.response = some f) : cabClaim s = some (.response f) := by
  rw [cabClaim, response]

theorem cabClaim_forwarded {f : Frame} {rest : List Frame} (response : s.line.response = none)
    (forward : s.line.forward = f :: rest) (turn : s.line.forwardedRun < 8 ∨ s.line.records = []) :
    cabClaim s = some (.forwarded f rest) := by
  cases records : s.line.records with
  | nil => rw [cabClaim, response, forward, records]
  | cons g more =>
    rw [cabClaim, response, forward, records]
    exact if_pos (turn.resolve_right (by rw [records]; exact List.cons_ne_nil g more))

theorem cabClaim_record {f : Frame} {rest : List Frame} (response : s.line.response = none)
    (turn : s.line.forward = [] ∨ 8 ≤ s.line.forwardedRun) (records : s.line.records = f :: rest) :
    cabClaim s = some (.record f rest) := by
  cases forward : s.line.forward with
  | nil => rw [cabClaim, response, forward, records]
  | cons g more =>
    have run := turn.resolve_left (by rw [forward]; exact List.cons_ne_nil g more)
    rw [cabClaim, response, forward, records]
    exact if_neg (by omega)

theorem cabClaim_none (response : s.line.response = none) (forward : s.line.forward = []) (records : s.line.records = []) :
    cabClaim s = none := by
  rw [cabClaim, response, forward, records]

/-! ## A frame that leaves the record queue -/

/-- The head of the record queue is begun, before the line interface admits records (R18). -/
def recordBegun (f : Frame) (rest : List Frame) (s : State) : State :=
  s.setLine { s.line with records := rest, forwardedRun := 0, cabOut := some f }

variable {f : Frame} {rest : List Frame}

theorem isWaiting_recordBegun (p : Producer) : isWaiting (recordBegun f rest s) p = isWaiting s p := by
  cases p with
  | rod => exact isWaiting_rod_congr rfl
  | ticket => exact isWaiting_ticket_congr rfl
  | strata => exact isWaiting_strata_congr rfl rfl
  | event => exact isWaiting_event_congr rfl
  | status => exact isWaiting_status_congr rfl

theorem waiting_recordBegun : waiting (recordBegun f rest s) = waiting s :=
  List.filter_congr fun p _ => isWaiting_recordBegun p

/-- Where nothing that waits fits the place made, no more happens: what waits has been judged before. -/
theorem beginCab_record_closed (closed : admissible (recordBegun f rest s) = none) :
    beginCab (.record f rest) s = recordBegun f rest s := by
  have judged : waiting s = waiting (recordBegun f rest s) := waiting_recordBegun.symm
  show admission admissionBound (waiting s) (recordBegun f rest s) = _
  rw [judged]
  exact admission_of_settled closed

end

/-- Settles O9: the claims of `cabClaim` in their order; as a record frame leaves, `Admits` says what may enter. -/
theorem cabArbiterBegins : Obligations.CabArbiterBegins := by
  intro s
  refine ⟨exec_cabTransmitBegin_down, fun up => ⟨fun f response => ?_, fun f rest response forward turn => ?_,
    fun f rest response turn records => ?_, fun response forward records => ?_⟩⟩
  · exact exec_cabTransmitBegin_claim up (cabClaim_response response)
  · exact exec_cabTransmitBegin_claim up (cabClaim_forwarded response forward turn)
  · have run := exec_cabTransmitBegin_claim up (cabClaim_record response turn records)
    have admits : Admits (recordBegun f rest s) (beginCab (.record f rest) s) := admitRecords_admits _ _
    refine ⟨⟨_, run, admits.grows, admits.same, fun frames out ticket fits =>
        admission_ticket (s := recordBegun f rest s) (2 * 64 + 4) (waiting s) out ticket fits⟩,
      fun none => ?_, fun r out ticket large => ?_⟩
    · exact run.trans (congrArg Host.Outcome.next (beginCab_record_closed (admissible_of_none (waiting_recordBegun.trans none))))
    · refine run.trans (congrArg Host.Outcome.next (beginCab_record_closed ?_))
      exact admissible_of_large (waiting_head?_ticket (s := recordBegun f rest s) out ticket) ticket large
  · exact exec_cabTransmitBegin_idle (cabClaim_none response forward records)

end Sys2Proof.Machine

/-! # PUMP_CLAMP occurrences, which an occurrence of another source may bring (R172, R182, R183) -/

namespace Sys2Proof.Machine

/-! ## What an occurrence brings to the account of PUMP_CLAMP -/

/-- The mode is kept, and the account of PUMP_CLAMP as well, but that in OBSERVE it may have had occurrences that are not
applied. -/
structure ClampKept (s t : State) : Prop where
  mode : t.line.mode = s.line.mode
  account : t.event.accounts[srcPumpClamp] = s.event.accounts[srcPumpClamp] ∨
    (s.line.mode = .observe ∧ t.event.accounts[srcPumpClamp].pending = true ∧
      t.event.accounts[srcPumpClamp].applied = false)

theorem ClampKept.same {s t : State} (mode : t.line.mode = s.line.mode) (event : t.event.accounts = s.event.accounts) :
    ClampKept s t := ⟨mode, .inl (by rw [event])⟩

theorem ClampKept.refl (s : State) : ClampKept s s := .same rfl rfl

theorem ClampKept.trans {s t u : State} (h : ClampKept s t) (k : ClampKept t u) : ClampKept s u := by
  refine ⟨k.mode.trans h.mode, ?_⟩
  rcases k.account with e | ⟨observe, e⟩
  · rw [e]; exact h.account
  · exact .inr ⟨h.mode ▸ observe, e⟩

theorem takeOccurrence_mode (o : Occ) (s : State) : (takeOccurrence o s).line.mode = s.line.mode := rfl

/-- A PUMP_CLAMP occurrence in OBSERVE that is not applied. -/
theorem clampKept_takeOccurrence {o : Occ} {s : State} (src : o.src = srcPumpClamp) (clear : o.applied = false)
    (observe : s.line.mode = .observe) : ClampKept s (takeOccurrence o s) := by
  refine ⟨rfl, .inr ⟨observe, ?_⟩⟩
  rw [takeOccurrence_account, if_pos src.symm]
  exact ⟨rfl, clear⟩

section
variable {occ : Occ → State → State} (hocc : ∀ o s, ClampKept (takeOccurrence o s) (occ o s))
include hocc

theorem stopPumpWith_clampKept (r : Role) (s : State) : ClampKept s (stopPumpWith occ r s) := by
  unfold stopPumpWith
  split
  · exact .same rfl rfl
  · next observe => exact (clampKept_takeOccurrence rfl rfl observe).trans (hocc _ s)
  · exact .refl s

theorem raiseClassWith_clampKept (k : AlarmClass) (s : State) : ClampKept s (raiseClassWith occ k s) := by
  have active : ClampKept s (statusDue .cls (setClass k .active s)) := .same rfl rfl
  unfold raiseClassWith activationNoticeWith
  split
  · exact .refl s
  · split
    · exact (active.trans (stopPumpWith_clampKept hocc _ _)).trans (stopPumpWith_clampKept hocc _ _)
    · exact active

theorem occurWith_clampKept (o : Occ) (s : State) : ClampKept (takeOccurrence o s) (occurWith occ o s) := by
  unfold occurWith
  split
  · exact .refl _
  · exact raiseClassWith_clampKept hocc _ _

end

theorem occurFuel_clampKept (n : Nat) : ∀ o s, ClampKept (takeOccurrence o s) (occurFuel n o s) := by
  induction n with
  | zero => exact fun o s => .refl _
  | succ n ih => exact occurWith_clampKept ih

/-- After an occurrence has been taken, what it brings keeps PUMP_CLAMP as `ClampKept` says. -/
theorem raise_clampKept (o : Occ) (s : State) : ClampKept (takeOccurrence o s) (raise o s) := occurFuel_clampKept _ o s

theorem raise_clampKept_other {o : Occ} (s : State) (other : o.src ≠ srcPumpClamp) : ClampKept s (raise o s) := by
  have taken : ClampKept s (takeOccurrence o s) :=
    ⟨rfl, .inl (by rw [takeOccurrence_account, if_neg other.symm])⟩
  exact taken.trans (raise_clampKept o s)

section
variable {s u : State} {d : BitVec 32} {a : Bool}

/-- In GOVERN a PUMP_CLAMP occurrence is the only one of its kind that it brings. -/
theorem occurred_clamp (governed : u.line.mode = .govern)
    (account : u.event.accounts[srcPumpClamp] = s.event.accounts[srcPumpClamp])
    (clock : u.depth.jobClock = s.depth.jobClock) :
    Occurred srcPumpClamp d a s (raise { src := srcPumpClamp, detail := d, applied := a } u) := by
  have kept := (raise_clampKept { src := srcPumpClamp, detail := d, applied := a } u).account.resolve_right
    fun h => by rw [takeOccurrence_mode, governed] at h; cases h.1
  rw [takeOccurrence_account, if_pos rfl, account] at kept
  unfold Occurred
  rw [kept]
  exact ⟨congrArg (if s.event.accounts[srcPumpClamp].pending then s.event.accounts[srcPumpClamp].firstTime else ·) clock,
    rfl, rfl, .inl ⟨rfl, rfl⟩⟩

/-- A PUMP_CLAMP occurrence in OBSERVE stands, whatever others it brings. -/
theorem stands_clamp : Stands srcPumpClamp false s (raise { src := srcPumpClamp, detail := d, applied := false } u) := by
  rcases (raise_clampKept { src := srcPumpClamp, detail := d, applied := false } u).account with h | ⟨-, pending, clear⟩
  · rw [takeOccurrence_account, if_pos rfl] at h
    unfold Stands
    rw [h]
    exact ⟨rfl, .inl rfl⟩
  · exact ⟨clear, .inl pending⟩

end

/-! ## PUMP_CLAMP through the end of a step (R23) -/

/-- A record's entry leaves a source's account as it is, or is that of its own EVENT record and clears it. -/
theorem admitOne_source {t : State} {p : Producer} {r : RecordBody} (can : admissible t = some (p, r)) (src : Source) :
    (admitOne p r t).event.accounts[src] = t.event.accounts[src] ∨
      (t.event.accounts[src].pending = true ∧
        (admitOne p r t).event.accounts[src] = t.event.accounts[src].entered ∧
        ∃ f ∈ newFrames t (admitOne p r t), EventFrame src t.event.accounts[src].count t.event.accounts[src].applied
          t.event.accounts[src].firstTime t.event.accounts[src].detail f) := by
  by_cases event : p = .event
  · subst event
    obtain ⟨x, lowest, rfl⟩ : ∃ x, lowestPending t = some x ∧ eventRecord t x = r := by
      simpa [offeredRecord] using offered_of_admissible can
    have entered := admitOne_event (eventRecord t x) lowest
    by_cases own : src = x
    · subst own
      have pending : t.event.accounts[src].pending = true := by simpa using List.find?_some lowest
      have frames : newFrames t (admitOne .event (eventRecord t src) t) =
          recordFrames t.line.serial (eventRecord t src) := by rw [entered]; exact List.drop_left
      refine .inr ⟨pending, by rw [entered, setAccount_account, if_pos rfl], ?_⟩
      rw [frames]
      exact eventRecord_frame t.line.serial src t
    · exact .inl (by rw [entered, setAccount_account, if_neg own]; rfl)
  · exact .inl (admitOne_account r t event src)

section
variable {src : Source} {d : BitVec 32} {a : Bool} {s t : State}

/-- An occurrence is still one after a record has entered. -/
theorem Occurred.admitOne {p : Producer} {r : RecordBody} (h : Occurred src d a s t)
    (grows : s.line.records <+: t.line.records) (can : admissible t = some (p, r)) :
    Occurred src d a s (Machine.admitOne p r t) := by
  have more := (admitOne_admits p r t (admissible_fits can)).grows
  rcases admitOne_source can src with same | ⟨pending, entered, f, new, frame⟩
  · exact h.keep same grows more
  · obtain ⟨time, detail, applied, count⟩ := h
    have count := (count.resolve_right fun k => by rw [k.1] at pending; cases pending).2
    refine ⟨by rw [entered]; exact time, by rw [entered]; exact detail, by rw [entered]; exact applied,
      .inr ⟨by rw [entered]; rfl, by rw [entered]; rfl, f, ?_, ?_⟩⟩
    · rw [newFrames_trans grows more]
      exact List.mem_append_right _ new
    · rw [← count, ← time, ← detail, ← applied]
      exact frame

/-- What stands still does after a record has entered. -/
theorem Stands.admitOne {p : Producer} {r : RecordBody} (h : Stands src a s t)
    (grows : s.line.records <+: t.line.records) (can : admissible t = some (p, r)) :
    Stands src a s (Machine.admitOne p r t) := by
  have more := (admitOne_admits p r t (admissible_fits can)).grows
  obtain ⟨applied, stands⟩ := h
  rcases admitOne_source can src with same | ⟨-, entered, f, new, frame⟩
  · unfold Stands
    rw [same, newFrames_trans grows more]
    exact ⟨applied, stands.imp id fun ⟨f, old, k⟩ => ⟨f, List.mem_append_left _ old, k⟩⟩
  · refine ⟨by rw [entered]; exact applied, .inr ⟨f, ?_, _, _, _, applied ▸ frame⟩⟩
    rw [newFrames_trans grows more]
    exact List.mem_append_right _ new

end

section
variable {d : BitVec 32} {s : State}

/-- RECORD_QUEUE_FULL is no PUMP_CLAMP. -/
theorem queueFull_clampKept (p : Producer) (t : State) : ClampKept t (occurNat srcQueueFull p.code t) :=
  raise_clampKept_other t (show srcQueueFull ≠ srcPumpClamp by decide)

/-- A property of PUMP_CLAMP that entries and further occurrences keep is kept by the end of a step. -/
theorem admitted_clamp {P : State → Prop} {t : State} (s' : State) (grows : s.line.records <+: t.line.records)
    (enters : ∀ p r u, s.line.records <+: u.line.records → admissible u = some (p, r) → P u → P (admitOne p r u))
    (brings : ∀ u v, u.line.mode = t.line.mode → ClampKept u v → s.line.records <+: u.line.records →
      u.line.records = v.line.records → P u → P v)
    (h : P t) : P (admitted s' t) := by
  have all (n : Nat) : ∀ judged u, u.line.mode = t.line.mode → s.line.records <+: u.line.records → P u →
      P (admission n judged u) := by
    induction n with
    | zero => exact fun _ _ _ _ h => h
    | succ n ih =>
      intro judged u mode grows h
      unfold Machine.admission
      split
      · next p r can =>
        have adm := admitOne_admits p r u (admissible_fits can)
        exact ih _ _ (adm.mode.trans mode) (grows.trans adm.grows) (enters p r u grows can h)
      · split
        · next p _ =>
          have kept := queueFull_clampKept p u
          have records := (occurNat_eventOnly srcQueueFull p.code u).records
          exact ih _ _ (kept.mode.trans mode) (by rw [records]; exact grows)
            (brings u _ mode kept grows records.symm h)
        · exact h
  unfold admitted
  split
  · exact h
  · exact all _ _ t rfl grows h

/-- In GOVERN a PUMP_CLAMP occurrence in a step, at its end (R23, R168). -/
theorem occurred_clamp_admitted {a : Bool} {t : State} (governed : t.line.mode = .govern)
    (grows : s.line.records <+: t.line.records) (h : Occurred srcPumpClamp d a s t) (s' : State) :
    Occurred srcPumpClamp d a s (admitted s' t) :=
  admitted_clamp s' grows (fun _ _ _ grows can h => h.admitOne grows can)
    (fun u v mode kept grows records h => by
      have same := kept.account.resolve_right fun k => by rw [mode, governed] at k; cases k.1
      exact h.keep same grows (by rw [records]))
    h

/-- PUMP_CLAMP occurrences in OBSERVE, at the end of a step (R23, R168). -/
theorem stands_clamp_admitted {t : State} (grows : s.line.records <+: t.line.records) (h : Stands srcPumpClamp false s t)
    (s' : State) : Stands srcPumpClamp false s (admitted s' t) :=
  admitted_clamp s' grows (fun _ _ _ grows can h => h.admitOne grows can)
    (fun u v _ kept _ records h => by
      rcases kept.account with same | ⟨-, pending, clear⟩
      · unfold Stands newFrames at *
        rw [same, ← records]
        exact h
      · exact ⟨clear, .inl pending⟩)
    h

end

end Sys2Proof.Machine

/-! # The FIELD transmitter and the pump commands (R19, R181, R182, R184) -/

namespace Sys2Proof.Machine

/-! ## The step and what it serves -/

section
variable {s : State}

theorem exec_fieldTransmitBegin_idle (h : s.line.fieldLink.up = false ∨ s.line.mode = .bypass) :
    exec .fieldTransmitBegin s = .next s := by
  refine congrArg Host.Outcome.next (if_neg fun ⟨up, mode⟩ => ?_)
  rcases h with down | bypass
  · rw [down] at up; cases up
  · exact mode bypass

theorem exec_fieldTransmitBegin_serves (up : s.line.fieldLink.up = true) (mode : s.line.mode ≠ .bypass) :
    exec .fieldTransmitBegin s = .next (admitted s (serveField (s.line.downstream.length + 1) s)) :=
  congrArg Host.Outcome.next (if_pos ⟨up, mode⟩)

/-- The oldest waiting injection has been taken from the list. -/
def injectionTaken (rest : List Injection) (s : State) : State := s.setLine { s.line with injections := rest }

/-- The head of the downstream FIFO has been taken from it. -/
def commandTaken (rest : List Frame) (s : State) : State := s.setLine { s.line with downstream := rest }

theorem serveField_injection {i : Injection} {rest : List Injection} (n : Nat) (head : s.line.injections = i :: rest) :
    serveField (n + 1) s = beginField (beginInjection i (injectionTaken rest s)).1
      (beginInjection i (injectionTaken rest s)).2 := by
  rw [serveField, head]
  rfl

theorem serveField_sent {f g : Frame} {rest : List Frame} {v : State} (n : Nat) (none : s.line.injections = [])
    (head : s.line.downstream = f :: rest) (sent : govern f (commandTaken rest s) = (some g, v)) :
    serveField (n + 1) s = beginField g v := by
  rw [serveField, none, head]
  dsimp only
  rw [show govern f (s.setLine { s.line with downstream := rest }) = _ from sent]

theorem serveField_dropped {f : Frame} {rest : List Frame} {v : State} (n : Nat) (none : s.line.injections = [])
    (head : s.line.downstream = f :: rest) (dropped : govern f (commandTaken rest s) = (Option.none, v)) :
    serveField (n + 1) s = serveField n v := by
  rw [serveField, none, head]
  dsimp only
  rw [show govern f (s.setLine { s.line with downstream := rest }) = _ from dropped]

theorem serveField_empty (n : Nat) (none : s.line.injections = []) (empty : s.line.downstream = []) :
    serveField n s = s := by
  cases n with
  | zero => rfl
  | succ n => rw [serveField, none, empty]

/-- What is begun without making a producer wait stands at the end of the step. -/
theorem exec_fieldTransmitBegin_begun {t : State} (up : s.line.fieldLink.up = true) (mode : s.line.mode ≠ .bypass)
    (served : serveField (s.line.downstream.length + 1) s = t) (waits : SameWaits s t) :
    exec .fieldTransmitBegin s = .next t := by
  rw [exec_fieldTransmitBegin_serves up mode, served, waits.admitted]

/-! ## Frames that are sent as they stand -/

theorem remember_pump {r : Role} (pump : r = .pump1 ∨ r = .pump2) (x : Nat) (s : State) :
    remember r (some x) s = s.setGov (withSetpoint r x s.gov) := by
  rcases pump with rfl | rfl <;> rfl

theorem beginInjection_other {i : Injection} (pump1 : i.role ≠ .pump1) (pump2 : i.role ≠ .pump2) :
    beginInjection i s = (i.frame, s) := if_neg (not_or.2 ⟨pump1, pump2⟩)

theorem applied_eq_false (mode : s.line.mode ≠ .govern) : applied s = false := beq_eq_false_iff_ne.2 mode

theorem applied_eq_true (mode : s.line.mode = .govern) : applied s = true := beq_iff_eq.2 mode

/-- A pump injection that is within its limit, or that no decision is applied to, goes as it was formed (R182, R184). -/
theorem beginInjection_within {i : Injection} (pump : i.role = .pump1 ∨ i.role = .pump2)
    (within : s.line.mode ≠ .govern ∨ pumpLimit s i.role = none ∨
      ∃ limit, pumpLimit s i.role = some limit ∧ i.frame.val 0 ≤ limit) :
    beginInjection i s = (i.frame, remember i.role (some (i.frame.val 0)) s) := by
  rw [beginInjection, if_pos pump]
  split
  · next limit inGovern is =>
    refine if_neg ?_
    rcases within with mode | none | ⟨l, isL, le⟩
    · rw [applied_eq_false mode] at inGovern; cases inGovern
    · rw [none] at is; cases is
    · obtain rfl : l = limit := Option.some.inj (isL.symm.trans is)
      omega
  · rfl

theorem beginInjection_clamped {i : Injection} {limit : Nat} (pump : i.role = .pump1 ∨ i.role = .pump2)
    (mode : s.line.mode = .govern) (is : pumpLimit s i.role = some limit) (above : limit < i.frame.val 0) :
    beginInjection i s = ({ i.frame with values := [w16 limit] },
      remember i.role (some limit) (govOccur srcPumpClamp (clampDetail (i.frame.val 0) limit) s)) := by
  rw [beginInjection, if_pos pump, applied_eq_true mode, is]
  exact if_pos above

variable {f : Frame}

theorem govern_unchanged (h : roleOf s f = none ∨ f.values = []) : govern f s = (some f, s) := by
  unfold govern
  split
  · next r is =>
    rw [governRole, h.resolve_left (by rw [is]; exact Option.some_ne_none r)]
  · rfl

theorem govern_pump {r : Role} {w : Word} {vs : List Word} (pump : r = .pump1 ∨ r = .pump2)
    (role : roleOf s f = some r) (values : f.values = w :: vs) : govern f s = governPump r f w.toNat s := by
  rw [govern, role]
  dsimp only
  rw [governRole, values]
  rcases pump with rfl | rfl <;> rfl

theorem governPump_within {r : Role} {v : Nat}
    (within : pumpLimit s r = none ∨ ∃ limit, pumpLimit s r = some limit ∧ v ≤ limit) :
    governPump r f v s = (some f, remember r (some v) s) := by
  unfold governPump
  split
  · rfl
  · next limit is =>
    refine if_pos ?_
    rcases within with none | ⟨l, isL, le⟩
    · rw [none] at is; cases is
    · obtain rfl : l = limit := Option.some.inj (isL.symm.trans is)
      exact le

theorem governPump_clamped {r : Role} {v limit : Nat} (mode : s.line.mode = .govern) (is : pumpLimit s r = some limit)
    (above : limit < v) : governPump r f v s = (some (clampFrame f limit),
      remember r (some limit) (govOccur srcPumpClamp (clampDetail v limit) s)) := by
  rw [governPump, is]
  exact (if_neg (by omega)).trans (if_pos (applied_eq_true mode))

theorem governPump_noticed {r : Role} {v limit : Nat} (mode : s.line.mode ≠ .govern) (is : pumpLimit s r = some limit)
    (above : limit < v) : governPump r f v s = (some f,
      remember r (some v) (govOccur srcPumpClamp (clampDetail v limit) s)) := by
  rw [governPump, is]
  exact (if_neg (by omega)).trans (if_neg (by rw [applied_eq_false mode]; exact Bool.false_ne_true))

end

/-! ## A frame begun with a PUMP_CLAMP -/

theorem EventOnly.beginField {s t : State} (h : EventOnly s t) (f : Frame) :
    EventOnly (Machine.beginField f s) (Machine.beginField f t) :=
  { h with line := (by
      show { t.line with fieldOut := some f } = _
      rw [h.line]; rfl) }

theorem EventOnly.setGov {s t : State} (h : EventOnly s t) (g : GovState) : EventOnly (s.setGov g) (t.setGov g) :=
  { h with gov := rfl }

/-- A frame is begun with the value sent remembered. -/
def pumpBegun (g : Frame) (r : Role) (x : Nat) (s : State) : State := beginField g (s.setGov (withSetpoint r x s.gov))

section
variable {s u : State} {g : Frame} {r : Role} {x : Nat} {d : BitVec 32}

/-- A frame begun with a PUMP_CLAMP, at the end of its step, from a state that differs from the step's first in the
frames taken to be sent. -/
theorem pumpBegun_admitted (settled : Settled s) (pump : r = .pump1 ∨ r = .pump2) (offers : SameOffers s u)
    (records : u.line.records = s.line.records) (event : u.event = s.event) (depth : u.depth = s.depth) :
    let t := admitted s (beginField g (remember r (some x) (govOccur srcPumpClamp d u)))
    SameButRecords (pumpBegun g r x u) t ∧
      (u.line.mode = .govern → Occurred srcPumpClamp d true s t) ∧
      (u.line.mode = .observe → Stands srcPumpClamp false s t) := by
  have only : EventOnly u (govOccur srcPumpClamp d u) := raise_eventOnly _ _
  obtain ⟨w, is⟩ : ∃ w, w = govOccur srcPumpClamp d u := ⟨_, rfl⟩
  rw [← is] at only ⊢
  have begun : EventOnly (pumpBegun g r x u) (beginField g (remember r (some x) w)) := by
    rw [remember_pump pump, only.gov]
    exact (only.setGov _).beginField g
  have sameOffers : SameOffers s (beginField g (remember r (some x) w)) :=
    offers.trans ((⟨rfl, rfl, rfl, rfl⟩ : SameOffers u (pumpBegun g r x u)).trans begun.sameUnits.offers)
  have sameRecords := begun.records.trans records
  have grows : s.line.records <+: (beginField g (remember r (some x) w)).line.records := by rw [sameRecords]
  have wRecords := only.records.trans records
  have prefixed : s.line.records <+: w.line.records := by rw [wRecords]
  have account : (beginField g (remember r (some x) w)).event.accounts[srcPumpClamp] =
      w.event.accounts[srcPumpClamp] := by
    rw [remember_pump pump]
    rfl
  have same := begun.sameRecords.trans (admitted_sameRecords settled sameOffers sameRecords)
  refine ⟨same, fun mode => ?_, fun mode => ?_⟩
  · have occurred : Occurred srcPumpClamp d true s w := by
      rw [is, govOccur, applied_eq_true mode]
      exact occurred_clamp mode (by rw [event]) (by rw [depth])
    have mode' : (beginField g (remember r (some x) w)).line.mode = .govern :=
      (congrArg LineState.mode begun.line).trans mode
    exact occurred_clamp_admitted mode' grows
      (occurred.keep account prefixed (by rw [sameRecords, wRecords])) s
  · have stands : Stands srcPumpClamp false s w := by
      rw [is, govOccur, applied_eq_false (by rw [mode]; decide)]
      exact stands_clamp
    refine stands_clamp_admitted grows ?_ s
    unfold Stands newFrames at *
    rw [account, sameRecords]
    rw [wRecords] at stands
    exact stands

end

end Sys2Proof.Machine

/-! # What leaves on the FIELD line (O10, O11, O13) -/

namespace Sys2Proof.Machine

/-! ## The limit of a pump role (R181) -/

section
variable {s t : State} {r : Role} {x v : Nat}

theorem mem_pumpLimitTerms (pump : r = .pump1 ∨ r = .pump2) : x ∈ pumpLimitTerms s r ↔
    (∃ k, s.circ.segment = some k ∧ x = pageWord (activePages s tMudprog) (k + 1) 4) ∨
      (cond s srcPressureHold = true ∧ ∃ k, s.circ.segment = some k ∧
        x = pageWord (activePages s tMudprog) (k + 1) 6) ∨
      (actionInForce s .holdPumpRate = true ∧ (if r = .pump1 then s.gov.setpoint1 else s.gov.setpoint2) = some x) ∨
      (actionInForce s .stopPumps = true ∧ x = 0) := by
  have remembered : setpoint s r = if r = .pump1 then s.gov.setpoint1 else s.gov.setpoint2 := by
    rcases pump with rfl | rfl <;> rfl
  have ifMem (b : Bool) (l : List Nat) : x ∈ (if b = true then l else []) ↔ b = true ∧ x ∈ l := by
    cases b <;> simp
  simp only [pumpLimitTerms, activeSegment, remembered]
  cases s.circ.segment with
  | none => simp [ifMem]
  | some k => simp [ifMem, segmentIn]

theorem pumpLimit_eq_none_iff : pumpLimit s r = none ↔ ∀ x, x ∉ pumpLimitTerms s r := by
  rw [pumpLimit, List.min?_eq_none_iff, List.eq_nil_iff_forall_not_mem]

theorem pumpLimit_eq_some_iff {limit : Nat} : pumpLimit s r = some limit ↔
    limit ∈ pumpLimitTerms s r ∧ ∀ x ∈ pumpLimitTerms s r, limit ≤ x := by
  rw [pumpLimit]
  exact List.min?_eq_some_iff

/-- A pump rate is within what the active segment allows (R181). -/
def WithinSegment (s : State) (v : Nat) : Prop :=
  ∀ k, s.circ.segment = some k → v ≤ pageWord (activePages s tMudprog) (k + 1) 4 ∧
    (cond s srcPressureHold = true → v ≤ pageWord (activePages s tMudprog) (k + 1) 6)

theorem WithinSegment.zero : WithinSegment s 0 := fun _ _ => ⟨Nat.zero_le _, fun _ => Nat.zero_le _⟩

theorem WithinSegment.congr (circ : t.circ = s.circ) (tables : t.tables = s.tables) (conds : ∀ q, cond t q = cond s q)
    (h : WithinSegment t v) : WithinSegment s v := by
  intro k segment
  have pages : activePages t tMudprog = activePages s tMudprog := by rw [activePages, activeCopy, tables]; rfl
  have := h k (by rw [circ]; exact segment)
  rw [pages, conds] at this
  exact this

/-- Without a limit no segment is active. -/
theorem withinSegment_of_no_limit (pump : r = .pump1 ∨ r = .pump2) (none : pumpLimit s r = none) : WithinSegment s v :=
  fun k segment => absurd ((mem_pumpLimitTerms pump).2 (.inl ⟨k, segment, rfl⟩)) (pumpLimit_eq_none_iff.1 none _)

theorem withinSegment_of_le {limit : Nat} (pump : r = .pump1 ∨ r = .pump2) (is : pumpLimit s r = some limit)
    (le : v ≤ limit) : WithinSegment s v := by
  obtain ⟨-, least⟩ := pumpLimit_eq_some_iff.1 is
  refine fun k segment => ⟨le.trans (least _ ?_), fun hold => le.trans (least _ ?_)⟩
  · exact (mem_pumpLimitTerms pump).2 (.inl ⟨k, segment, rfl⟩)
  · exact (mem_pumpLimitTerms pump).2 (.inr (.inl ⟨hold, k, segment, rfl⟩))

theorem w16_toNat_le (n : Nat) : (w16 n).toNat ≤ n := by
  rw [w16, BitVec.toNat_ofNat]
  exact Nat.mod_le _ _

/-! ## A pump value that is begun in GOVERN (R182, R184) -/

variable {f g : Frame} {w : Word} {vs : List Word}

theorem val_zero_of_cons (values : f.values = w :: vs) : f.val 0 = w.toNat := by
  rw [Frame.val, values]
  rfl

/-- A pump injection, or one of 0, is begun within the segment. -/
theorem beginInjection_withinSegment {i : Injection} (mode : s.line.mode = .govern)
    (told : i.role = .pump1 ∨ i.role = .pump2 ∨ value i.frame 0 = 0)
    (values : (beginInjection i s).1.values = w :: vs) : WithinSegment s w.toNat := by
  by_cases pump : i.role = .pump1 ∨ i.role = .pump2
  · cases is : pumpLimit s i.role with
    | none => exact withinSegment_of_no_limit pump is
    | some limit =>
      by_cases le : i.frame.val 0 ≤ limit
      · rw [beginInjection_within pump (.inr (.inr ⟨limit, is, le⟩))] at values
        rw [val_zero_of_cons values] at le
        exact withinSegment_of_le pump is le
      · rw [beginInjection_clamped pump mode is (by omega)] at values
        obtain ⟨rfl, -⟩ := List.cons.inj values
        exact withinSegment_of_le pump is (w16_toNat_le limit)
  · rw [not_or] at pump
    rw [beginInjection_other pump.1 pump.2] at values
    have zero := (told.resolve_left pump.1).resolve_left pump.2
    rw [← val_zero_of_cons values, show i.frame.val 0 = 0 from zero]
    exact .zero

theorem roleOf_clampFrame (limit : Nat) : roleOf s (clampFrame f limit) = roleOf s f := rfl

/-- What is begun in answer to a pump command in GOVERN: the same role's, within the segment, and the claim stays. -/
theorem governPump_begun (mode : s.line.mode = .govern) (pump : r = .pump1 ∨ r = .pump2) (values : f.values = w :: vs) :
    ∃ g u, governPump r f w.toNat s = (some g, u) ∧ roleOf s g = roleOf s f ∧ u.gov.holder = s.gov.holder ∧
      ∀ w' vs', g.values = w' :: vs' → WithinSegment s w'.toNat := by
  have holder (x : Option Nat) (u : State) : (remember r x u).gov.holder = u.gov.holder := by
    rcases pump with rfl | rfl <;> rfl
  cases is : pumpLimit s r with
  | none =>
    exact ⟨_, _, governPump_within (.inl is), rfl, holder _ _, fun _ _ _ => withinSegment_of_no_limit pump is⟩
  | some limit =>
    by_cases le : w.toNat ≤ limit
    · refine ⟨_, _, governPump_within (.inr ⟨limit, is, le⟩), rfl, holder _ _, fun w' vs' h => ?_⟩
      obtain ⟨rfl, -⟩ := List.cons.inj (values.symm.trans h)
      exact withinSegment_of_le pump is le
    · refine ⟨_, _, governPump_clamped mode is (by omega), roleOf_clampFrame limit, ?_, fun w' vs' h => ?_⟩
      · exact (holder _ _).trans (congrArg GovState.holder (raise_eventOnly _ _).gov)
      · obtain ⟨rfl, -⟩ := List.cons.inj h
        exact withinSegment_of_le pump is (w16_toNat_le limit)

/-! ## What a decision leaves of the claim (R189) -/

/-- A frame goes unchanged and nothing else changes, or the command is refused. -/
def SentOrRefused (f : Frame) (s : State) (d : Decision) : Prop :=
  d = (some f, s) ∨ ∃ src cause aux, d = refuse src cause aux f s

theorem governHoist_sentOrRefused (f : Frame) (w : Word) (s : State) : SentOrRefused f s (governHoist f w s) := by
  unfold governHoist
  split
  · exact .inl rfl
  · split
    · exact .inr ⟨_, _, _, rfl⟩
    · split
      · exact .inr ⟨_, _, _, rfl⟩
      · exact .inl rfl

theorem governSlips_sentOrRefused (f : Frame) (v : Nat) (s : State) : SentOrRefused f s (governSlips f v s) := by
  unfold governSlips
  split
  · exact .inl rfl
  · split
    · exact .inr ⟨_, _, _, rfl⟩
    · split
      · dsimp only
        split
        · exact .inl rfl
        · exact .inr ⟨_, _, _, rfl⟩
      · exact .inr ⟨_, _, _, rfl⟩

theorem governTong_sentOrRefused (f : Frame) (v : Nat) (s : State) : SentOrRefused f s (governTong f v s) := by
  unfold governTong
  split
  · exact .inr ⟨_, _, _, rfl⟩
  · exact .inl rfl

theorem SentOrRefused.gov {d : Decision} (h : SentOrRefused f s d) : d.2.gov = s.gov := by
  rcases h with rfl | ⟨src, cause, aux, rfl⟩
  · rfl
  · exact (raise_eventOnly _ _).gov

theorem refuse_governed (mode : s.line.mode = .govern) (src : Source) (cause aux : Nat) :
    (refuse src cause aux f s).1 = none := if_pos (applied_eq_true mode)

/-- While TOP_DRIVE holds the well centre a HANDLER command is refused, or is no present command (R189). -/
theorem governHandler_topDrive (held : s.gov.holder = .topDrive) (f : Frame) (v : Nat) :
    (v ≠ 1 ∧ SentOrRefused f s (governHandler f v s)) ∨
      ∃ src cause aux, governHandler f v s = refuse src cause aux f s := by
  unfold governHandler
  split
  · next passed =>
    refine .inl ?_
    by_cases one : v = 1
    · rw [handlerRefusal, if_neg (by omega), if_neg (by omega), held] at passed
      split at passed <;> cases passed
    · exact ⟨one, .inl (by rw [if_neg one])⟩
  · next cause aux _ =>
    dsimp only
    rw [if_neg (by rw [held]; exact fun h => by cases h.2.2)]
    exact .inr ⟨_, _, _, rfl⟩

/-- In GOVERN, while TOP_DRIVE holds the well centre, a decision keeps the claim, and a frame it sends is no present
command. -/
theorem govern_topDrive (mode : s.line.mode = .govern) (held : s.gov.holder = .topDrive) :
    (govern f s).2.gov.holder = .topDrive ∧
      ∀ g, (govern f s).1 = some g → ¬(roleOf s g = some .handler ∧ ∃ vs, g.values = 1 :: vs) := by
  have unchanged (h : roleOf s f = none ∨ f.values = []) : ¬(roleOf s f = some .handler ∧ ∃ vs, f.values = 1 :: vs) :=
    fun ⟨role, vs, values⟩ => h.elim (fun k => by rw [role] at k; cases k) fun k => by rw [values] at k; cases k
  cases role : roleOf s f with
  | none =>
    rw [govern_unchanged (.inl role)]
    exact ⟨held, fun g h => by cases h; exact unchanged (.inl role)⟩
  | some r =>
    cases values : f.values with
    | nil =>
      rw [govern_unchanged (.inr values)]
      exact ⟨held, fun g h => by cases h; exact unchanged (.inr values)⟩
    | cons w ws =>
      have other {d : Decision} (notHandler : r ≠ .handler) (is : govern f s = d) (h : SentOrRefused f s d) :
          (govern f s).2.gov.holder = .topDrive ∧
            ∀ g, (govern f s).1 = some g → ¬(roleOf s g = some .handler ∧ ∃ vs, g.values = 1 :: vs) := by
        rw [is]
        refine ⟨(congrArg GovState.holder h.gov).trans held, fun g sent => ?_⟩
        rcases h with rfl | ⟨src, cause, aux, rfl⟩
        · cases sent
          exact fun k => notHandler (Option.some.inj (role.symm.trans k.1))
        · rw [refuse_governed mode] at sent; cases sent
      have pump (pump : r = .pump1 ∨ r = .pump2) : (govern f s).2.gov.holder = .topDrive ∧
          ∀ g, (govern f s).1 = some g → ¬(roleOf s g = some .handler ∧ ∃ vs, g.values = 1 :: vs) := by
        obtain ⟨g, u, is, same, holder, -⟩ := governPump_begun (f := f) mode pump values
        rw [govern_pump pump role values, is]
        refine ⟨holder.trans held, fun g' sent k => ?_⟩
        cases sent
        rw [same, role] at k
        rcases pump with rfl | rfl <;> cases k.1
      have decided {d : Decision} (is : governRole r f s = d) : govern f s = d := by rw [govern, role]; exact is
      cases r with
      | pump1 => exact pump (.inl rfl)
      | pump2 => exact pump (.inr rfl)
      | hoist => exact other nofun (decided (by rw [governRole, values])) (governHoist_sentOrRefused f w s)
      | slips => exact other nofun (decided (by rw [governRole, values])) (governSlips_sentOrRefused f w.toNat s)
      | tong => exact other nofun (decided (by rw [governRole, values])) (governTong_sentOrRefused f w.toNat s)
      | handler =>
        have is : govern f s = governHandler f w.toNat s := decided (by rw [governRole, values])
        rw [is]
        rcases governHandler_topDrive held f w.toNat with ⟨notOne, h⟩ | ⟨src, cause, aux, refused⟩
        · refine ⟨(congrArg GovState.holder h.gov).trans held, fun g sent => ?_⟩
          rcases h with h | ⟨src, cause, aux, h⟩
          · rw [h] at sent
            cases sent
            rintro ⟨-, vs, k⟩
            obtain ⟨rfl, -⟩ := List.cons.inj (values.symm.trans k)
            exact notOne rfl
          · rw [h, refuse_governed mode] at sent; cases sent
        · rw [refused]
          refine ⟨(congrArg GovState.holder (raise_eventOnly _ _).gov).trans held, fun g sent => ?_⟩
          rw [refuse_governed mode] at sent; cases sent

end

end Sys2Proof.Machine

/-! # What one step begins on the FIELD line (R19, R181 to R184, R189) -/

namespace Sys2Proof.Machine

section
variable {s t : State} {f g : Frame} {w : Word} {vs : List Word}

/-! ## A decision on the head of the downstream FIFO in GOVERN -/

theorem roleOf_congr (tables : t.tables = s.tables) (f : Frame) : roleOf t f = roleOf s f := by
  simp only [roleOf, roleBinding, activePages, activeCopy, tables]

/-- A drop: in GOVERN, of a rig command; besides the event unit's share nothing differs, and what injections it brings
tell a pump 0 (R180, R183). -/
structure Dropped (s t : State) : Prop where
  events : EventOnly s t
  stops : OnlyStops s t
  conds : ∀ q, cond t q = cond s q
  mode : s.line.mode = .govern

/-- A frame that is dropped is a rig command. -/
theorem govern_dropped (dropped : govern f s = (none, t)) : Dropped s t := by
  have contra {g : Frame} {u : State} (is : govern f s = (some g, u)) : Dropped s t := by
    rw [is] at dropped; cases dropped
  cases role : roleOf s f with
  | none => exact contra (govern_unchanged (.inl role))
  | some r =>
    by_cases pump : r = .pump1 ∨ r = .pump2
    · cases values : f.values with
      | nil => exact contra (govern_unchanged (.inr values))
      | cons w vs =>
        rw [govern_pump pump role values, governPump] at dropped
        split at dropped
        · cases dropped
        · split at dropped
          · cases dropped
          · split at dropped <;> cases dropped
    · rw [not_or] at pump
      have decided := govern_rigDecided role pump.1 pump.2
      rw [dropped] at decided
      obtain ⟨-, mode, gov⟩ := decided.frame.resolve_left nofun
      have events := decided.events
      rw [gov] at events
      exact ⟨events, decided.stops, decided.conds, eq_of_beq mode⟩

/-- A frame sent in GOVERN that is a pump command is within the segment. -/
theorem govern_sent_withinSegment {r : Role} (mode : s.line.mode = .govern) (sent : govern f s = (some g, t))
    (values : g.values = w :: vs) (pump : r = .pump1 ∨ r = .pump2) (role : roleOf s g = some r) :
    WithinSegment s w.toNat := by
  have same {v : State} (is : govern f s = (some f, v)) : f = g := by
    rw [is] at sent; cases sent; rfl
  cases own : roleOf s f with
  | none =>
    obtain rfl := same (govern_unchanged (.inl own))
    rw [own] at role; cases role
  | some q =>
    by_cases ownPump : q = .pump1 ∨ q = .pump2
    · cases ownValues : f.values with
      | nil =>
        obtain rfl := same (govern_unchanged (.inr ownValues))
        rw [ownValues] at values; cases values
      | cons w' vs' =>
        obtain ⟨g', u, is, -, -, within⟩ := governPump_begun (f := f) mode ownPump ownValues
        rw [govern_pump ownPump own ownValues, is] at sent
        cases sent
        exact within w vs values
    · rw [not_or] at ownPump
      have decided := (govern_rigDecided own ownPump.1 ownPump.2).frame
      rw [sent] at decided
      have is : some g = some f := decided.resolve_right fun h => by cases h.1
      obtain rfl := Option.some.inj is
      obtain rfl : q = r := Option.some.inj (own.symm.trans role)
      exact absurd pump (not_or.2 ownPump)

/-! ## Serving, drop after drop -/

/-- The frame that serving begins on an empty FIELD line, in GOVERN, is within the segment where it is an injection for a
pump or of 0, or a pump command (R182, R184). -/
theorem serveField_withinSegment (n : Nat) : ∀ s : State, s.line.mode = .govern → s.line.fieldOut = none →
    (∀ i ∈ s.line.injections.head?, i.role = .pump1 ∨ i.role = .pump2 ∨ value i.frame 0 = 0) →
    (serveField n s).line.fieldOut = some g → g.values = w :: vs →
    (s.line.injections = [] → ∃ r : Role, (r = .pump1 ∨ r = .pump2) ∧ roleOf s g = some r) →
    WithinSegment s w.toNat := by
  induction n with
  | zero =>
    intro s _ empty _ begun
    rw [serveField, empty] at begun
    cases begun
  | succ n ih =>
    intro s mode empty told begun values role
    cases injections : s.line.injections with
    | cons i rest =>
      rw [serveField_injection n injections] at begun
      obtain rfl := Option.some.inj begun
      exact .congr rfl rfl (fun _ => rfl) (beginInjection_withinSegment (s := injectionTaken rest s) mode
        (told i (by rw [injections]; rfl)) values)
    | nil =>
      obtain ⟨r, pump, role⟩ := role injections
      cases downstream : s.line.downstream with
      | nil => rw [serveField_empty _ injections downstream, empty] at begun; cases begun
      | cons f rest =>
        rcases decided : govern f (commandTaken rest s) with ⟨_ | f', u⟩
        · rw [serveField_dropped n injections downstream decided] at begun
          have drop := govern_dropped decided
          refine .congr drop.events.circ drop.events.tables drop.conds (ih u ?_ ?_ ?_ begun values fun _ => ⟨r, pump, ?_⟩)
          · exact (congrArg LineState.mode drop.events.line).trans mode
          · exact (congrArg LineState.fieldOut drop.events.line).trans empty
          · intro i head
            rcases drop.stops i (List.mem_of_mem_head? head) with old | ⟨pump, zero⟩
            · rw [show (commandTaken rest s).line.injections = [] from injections] at old; cases old
            · exact .inr (.inr zero)
          · exact (roleOf_congr (s := s) drop.events.tables g).trans role
        · rw [serveField_sent n injections downstream decided] at begun
          obtain rfl := Option.some.inj begun
          exact .congr rfl rfl (fun _ => rfl) (govern_sent_withinSegment (s := commandTaken rest s) mode decided values
            pump role)

/-- An injection that tells a pump 0 goes as it was formed and keeps the claim. -/
theorem beginInjection_stop {i : Injection} (pump : i.role = .pump1 ∨ i.role = .pump2) (zero : value i.frame 0 = 0) :
    (beginInjection i s).1 = i.frame ∧ (beginInjection i s).2.gov.holder = s.gov.holder := by
  have val : i.frame.val 0 = 0 := zero
  have within : pumpLimit s i.role = none ∨ ∃ limit, pumpLimit s i.role = some limit ∧ i.frame.val 0 ≤ limit := by
    cases is : pumpLimit s i.role with
    | none => exact .inl rfl
    | some limit => exact .inr ⟨limit, rfl, by omega⟩
  rw [beginInjection_within pump (.inr within), remember_pump pump]
  refine ⟨rfl, ?_⟩
  rcases pump with h | h <;> rw [h] <;> rfl

/-- In GOVERN, while TOP_DRIVE holds the well centre and no injection but those that stop a pump waits, serving keeps the
claim and begins no present command (R189). -/
theorem serveField_topDrive (n : Nat) : ∀ s : State, s.line.mode = .govern → s.gov.holder = .topDrive →
    (∀ i ∈ s.line.injections, (i.role = .pump1 ∨ i.role = .pump2) ∧ value i.frame 0 = 0) →
    (serveField n s).gov.holder = .topDrive ∧ ((serveField n s).line.fieldOut = s.line.fieldOut ∨
      ∃ g, (serveField n s).line.fieldOut = some g ∧ ¬(roleOf s g = some .handler ∧ ∃ vs, g.values = 1 :: vs)) := by
  induction n with
  | zero => exact fun s _ held _ => ⟨held, .inl rfl⟩
  | succ n ih =>
    intro s mode held told
    cases injections : s.line.injections with
    | cons i rest =>
      obtain ⟨pump, zero⟩ := told i (by rw [injections]; exact List.mem_cons_self)
      obtain ⟨frame, holder⟩ := beginInjection_stop (s := injectionTaken rest s) pump zero
      rw [serveField_injection n injections]
      refine ⟨holder.trans held, .inr ⟨_, rfl, ?_⟩⟩
      rintro ⟨-, vs, values⟩
      rw [frame] at values
      have one : i.frame.val 0 = 1 := val_zero_of_cons values
      exact absurd (one.symm.trans zero) (by decide)
    | nil =>
      cases downstream : s.line.downstream with
      | nil =>
        rw [serveField_empty _ injections downstream]
        exact ⟨held, .inl rfl⟩
      | cons f rest =>
        obtain ⟨holder, notPresent⟩ := govern_topDrive (s := commandTaken rest s) (f := f) mode held
        rcases decided : govern f (commandTaken rest s) with ⟨_ | f', u⟩
        · rw [serveField_dropped n injections downstream decided]
          have drop := govern_dropped decided
          have mode' : u.line.mode = .govern := (congrArg LineState.mode drop.events.line).trans mode
          have held' : u.gov.holder = .topDrive := (congrArg GovState.holder drop.events.gov).trans held
          have out : u.line.fieldOut = s.line.fieldOut := by
            rw [drop.events.line]; rfl
          obtain ⟨kept, begun⟩ := ih u mode' held' fun i waits => (drop.stops i waits).resolve_left fun old => by
            rw [show (commandTaken rest s).line.injections = [] from injections] at old; cases old
          refine ⟨kept, begun.imp (·.trans out) fun ⟨g, is, no⟩ => ⟨g, is, ?_⟩⟩
          rw [roleOf_congr (s := s) drop.events.tables] at no
          exact no
        · rw [serveField_sent n injections downstream decided]
          rw [decided] at holder notPresent
          exact ⟨holder, .inr ⟨f', rfl, notPresent f' rfl⟩⟩

/-! ## One frame begun in a step -/

theorem exec_injection {i : Injection} {rest : List Injection} {u : State} (up : s.line.fieldLink.up = true)
    (mode : s.line.mode ≠ .bypass) (head : s.line.injections = i :: rest)
    (is : beginInjection i (injectionTaken rest s) = (g, u)) :
    exec .fieldTransmitBegin s = .next (admitted s (beginField g u)) := by
  rw [exec_fieldTransmitBegin_serves up mode, serveField_injection _ head, is]

theorem exec_command {rest : List Frame} {u : State} (up : s.line.fieldLink.up = true) (mode : s.line.mode ≠ .bypass)
    (none : s.line.injections = []) (head : s.line.downstream = f :: rest)
    (is : govern f (commandTaken rest s) = (some g, u)) :
    exec .fieldTransmitBegin s = .next (admitted s (beginField g u)) := by
  rw [exec_fieldTransmitBegin_serves up mode, serveField_sent _ none head is]

theorem not_govern (mode : s.line.mode = .observe) : s.line.mode ≠ .govern := by
  rw [mode]; decide

end

/-! ## The obligations -/

/-- Settles O10: what `beginInjection` and `serveField` begin, in their order; a clamp is `pumpBegun_admitted`. -/
theorem fieldTransmitterServes : Obligations.FieldTransmitterServes := by
  intro s
  refine ⟨exec_fieldTransmitBegin_idle, fun up mode => ⟨fun i rest head pump1 pump2 => ?_,
    fun i rest head pump => ⟨fun within => ?_, fun limit settled governed is above => ?_⟩,
    fun f rest none head unchanged => ?_, fun none empty => ?_⟩⟩
  · rw [exec_injection up mode head (beginInjection_other pump1 pump2)]
    exact congrArg Host.Outcome.next (SameWaits.admitted ⟨rfl, rfl, rfl, rfl, rfl⟩)
  · have sent := beginInjection_within (s := injectionTaken rest s) pump (within.imp_left not_govern)
    rw [remember_pump pump] at sent
    rw [exec_injection up mode head sent]
    exact congrArg Host.Outcome.next (SameWaits.admitted ⟨rfl, rfl, rfl, rfl, rfl⟩)
  · have sent := beginInjection_clamped (s := injectionTaken rest s) pump governed is above
    obtain ⟨same, occurred, -⟩ := pumpBegun_admitted (g := { i.frame with values := [w16 limit] }) (x := limit)
      (d := clampDetail (i.frame.val 0) limit) (u := injectionTaken rest s) settled pump ⟨rfl, rfl, rfl, rfl⟩ rfl rfl rfl
    exact ⟨_, exec_injection up mode head sent, same, occurred governed⟩
  · rw [exec_command up mode none head (govern_unchanged (s := commandTaken rest s) unchanged)]
    exact congrArg Host.Outcome.next (SameWaits.admitted ⟨rfl, rfl, rfl, rfl, rfl⟩)
  · exact exec_fieldTransmitBegin_begun up mode (serveField_empty _ none empty) ⟨rfl, rfl, rfl, rfl, rfl⟩

/-- A step begins what serving begins. -/
theorem exec_fieldTransmitBegin_cases {s t : State} (run : exec .fieldTransmitBegin s = .next t) :
    t = s ∨ (s.line.mode ≠ .bypass ∧ ∃ n, t = admitted s (serveField n s)) := by
  by_cases serves : s.line.fieldLink.up = true ∧ s.line.mode ≠ .bypass
  · rw [exec_fieldTransmitBegin_serves serves.1 serves.2] at run
    exact .inr ⟨serves.2, _, (Host.Outcome.next.inj run).symm⟩
  · rw [exec_fieldTransmitBegin_idle (by
      rw [not_and_or, not_not] at serves
      exact serves.imp_left (by simp))] at run
    exact .inl (Host.Outcome.next.inj run).symm

/-- Settles O11: the terms of `pumpLimitTerms`; `serveField_withinSegment` for the law; the four ways of `governPump` for
a command. -/
theorem pumpCommandIsHeldToLimit : Obligations.PumpCommandIsHeldToLimit := by
  refine ⟨fun s r pump => ⟨?_, fun limit => ?_⟩, fun s t g v vs k mode told run begun values role segment => ?_,
    fun s f rest r v vs up mode none head pump role values => ?_⟩
  · rw [pumpLimit_eq_none_iff]
    exact forall_congr' fun x => not_congr (mem_pumpLimitTerms pump)
  · rw [pumpLimit_eq_some_iff]
    exact and_congr (mem_pumpLimitTerms pump) (forall_congr' fun x => imp_congr_left (mem_pumpLimitTerms pump))
  · rcases exec_fieldTransmitBegin_cases run with rfl | ⟨-, n, rfl⟩
    · cases begun
    · rw [(admitted_admits _ _).line] at begun
      exact serveField_withinSegment n { s with line := { s.line with fieldOut := Option.none } } mode rfl told begun
        values role k segment
  · have governed := govern_pump (s := commandTaken rest s) pump role values
    have within (h : pumpLimit s r = Option.none ∨ ∃ limit, pumpLimit s r = some limit ∧ v.toNat ≤ limit) :
        exec .fieldTransmitBegin s = .next (pumpBegun f r v.toNat (commandTaken rest s)) := by
      rw [governPump_within (s := commandTaken rest s) h, remember_pump pump] at governed
      rw [exec_command up mode none head governed]
      exact congrArg Host.Outcome.next (SameWaits.admitted ⟨rfl, rfl, rfl, rfl, rfl⟩)
    have clamp (settled : Settled s) (g : Frame) (x limit : Nat) :=
      pumpBegun_admitted (g := g) (x := x) (d := clampDetail v.toNat limit) (u := commandTaken rest s) settled pump
        ⟨rfl, rfl, rfl, rfl⟩ rfl rfl rfl
    refine ⟨fun h => within (.inl h), fun limit is le => within (.inr ⟨limit, is, le⟩),
      fun limit settled is above inGovern => ?_, fun limit settled is above inObserve => ?_⟩
    · obtain ⟨same, occurred, -⟩ := clamp settled (clampFrame f limit) limit limit
      have frame : clampFrame f limit = { f with governed := true, values := BitVec.ofNat 16 limit :: vs } := by
        rw [clampFrame, values]; rfl
      rw [governPump_clamped (s := commandTaken rest s) inGovern is above] at governed
      exact ⟨_, exec_command up mode none head governed, frame ▸ same, occurred inGovern⟩
    · obtain ⟨same, -, stands⟩ := clamp settled f v.toNat limit
      rw [governPump_noticed (s := commandTaken rest s) (not_govern inObserve) is above] at governed
      exact ⟨_, exec_command up mode none head governed, same, stands inObserve⟩

/-- Settles O13: `serveField_topDrive`, the end of the step leaving the claim and what is begun. -/
theorem noPresentWhileTopDriveHolds : Obligations.NoPresentWhileTopDriveHolds := by
  intro s t mode held none run
  rcases exec_fieldTransmitBegin_cases run with rfl | ⟨-, n, rfl⟩
  · exact ⟨held, .inl rfl⟩
  · have admits := admitted_admits s (serveField n s)
    have out : (admitted s (serveField n s)).line.fieldOut = (serveField n s).line.fieldOut := by rw [admits.line]
    rw [admits.gov, out]
    exact serveField_topDrive n s mode held fun i waits => by rw [none] at waits; cases waits

end Sys2Proof.Machine

/-! # The rig commands (R185 to R187, R189) -/

namespace Sys2Proof.Machine

/-! ## Commands that are refused -/

/-- A command is refused: in GOVERN it is dropped, and its source has an occurrence (R180). -/
def IsRefused (src : Source) (cause aux : Nat) (f : Frame) (s : State) (d : Decision) : Prop :=
  d.1 = (if s.line.mode = .govern then none else some f) ∧ SameButEvents s d.2 ∧
    Occurred src (BitVec.ofNat 32 (cause * 65536 + aux)) (s.line.mode == .govern) s d.2

section
variable {s : State} {f : Frame}

theorem isRefused_refuse {src : Source} (apart : src ≠ srcPumpClamp) (cause aux : Nat) :
    IsRefused src cause aux f s (refuse src cause aux f s) := by
  refine ⟨?_, (raise_eventOnly _ _).same, occurred_raise _ _ apart ⟨_, rfl⟩ rfl⟩
  by_cases mode : s.line.mode = .govern
  · rw [if_pos mode]; exact refuse_governed mode src cause aux
  · rw [if_neg mode]; exact if_neg (by rw [applied_eq_false mode]; exact Bool.false_ne_true)

/-! ## The hoist (R185) -/

/-- The block is not known to be above the handler's margin (R185). -/
theorem blockInMargin_iff : blockInMargin s = true ↔
    match held s 7, settings s with
    | some b, some g => b ≤ g.handlerClearance + g.lowerMargin
    | _, _ => True := by
  unfold blockInMargin
  cases held s 7 <;> cases settings s <;> simp

theorem governHoist_raising {w : Word} (up : 0 ≤ w.toInt) : governHoist f w s = (some f, s) := if_pos up

theorem governHoist_held {w : Word} (down : w.toInt < 0) (hold : actionInForce s .holdHoistLower = true) :
    governHoist f w s = refuse srcHoistHeld 1 w.toNat f s :=
  (if_neg (by omega)).trans (if_pos hold)

theorem governHoist_margin {w : Word} (down : w.toInt < 0) (hold : actionInForce s .holdHoistLower = false)
    (near : s.gov.holder = .handler ∧ blockInMargin s = true) :
    governHoist f w s = refuse srcHoistHeld 2 w.toNat f s :=
  (if_neg (by omega)).trans ((if_neg (by rw [hold]; exact Bool.false_ne_true)).trans (if_pos near))

theorem governHoist_lowering {w : Word} (down : w.toInt < 0) (hold : actionInForce s .holdHoistLower = false)
    (clear : ¬(s.gov.holder = .handler ∧ blockInMargin s = true)) : governHoist f w s = (some f, s) :=
  (if_neg (by omega)).trans ((if_neg (by rw [hold]; exact Bool.false_ne_true)).trans (if_neg clear))

/-! ## The slips (R186) -/

theorem governSlips_set : governSlips f 1 s = (some f, s) := if_pos rfl

theorem governSlips_value {v : Nat} (large : 1 < v) : governSlips f v s = refuse srcSlipsRefused 3 v f s :=
  (if_neg (by omega)).trans (if_pos large)

theorem governSlips_dead (dead : s.channels[(6 : Ch)].state ≠ .live) :
    governSlips f 0 s = refuse srcSlipsRefused 1 0 f s := by
  have notLive : isLive s 6 = false := beq_eq_false_iff_ne.2 dead
  refine (if_neg (by decide)).trans ((if_neg (by decide)).trans ?_)
  rw [notLive]

theorem governSlips_release {h : Nat} {g : Settings} (live : s.channels[(6 : Ch)].state = .live)
    (hook : held s 6 = some h) (active : settings s = some g) : governSlips f 0 s =
      if (s.depth.buoyed : Int) * g.slipsReleasePercent ≤ ((h : Int) * 10 - g.blockWeight) * 100 then (some f, s)
      else refuse srcSlipsRefused 2 h f s := by
  have isLive : isLive s 6 = true := beq_iff_eq.2 live
  refine (if_neg (by decide)).trans ((if_neg (by decide)).trans ?_)
  rw [isLive, hook, active]

/-! ## The tong (R187) -/

theorem governTong_passed {v : Nat} (passed : tongRefusal v s = none) : governTong f v s = (some f, s) := by
  rw [governTong, passed]

theorem governTong_refused {v cause : Nat} (refused : tongRefusal v s = some cause) :
    governTong f v s = refuse srcTongRefused cause v f s := by
  rw [governTong, refused]

/-- Slips are known to be set (R187). -/
def SlipsSet (s : State) : Prop := s.channels[(10 : Ch)].state = .live ∧ held s 10 ≠ some 0

theorem slipsSet_iff : SlipsSet s ↔ ¬(isLive s 10 = false ∨ held s 10 = some 0) := by
  rw [not_or, SlipsSet, isLive, Bool.not_eq_false, beq_iff_eq]

/-- The tests on a TONG command of value 1 or 2, in their order (R187). -/
theorem tongRefusal_cases {v : Nat} (asks : v = 1 ∨ v = 2) :
    (actionInForce s .holdTong = true → tongRefusal v s = some 1) ∧
    (actionInForce s .holdTong = false → ¬SlipsSet s → tongRefusal v s = some 2) ∧
    (actionInForce s .holdTong = false → SlipsSet s →
      tongRefusal v s = if v = 1 ∧ s.rod.candidate = none then some 3
        else if v = 2 ∧ s.rod.string = [] then some 4 else none) := by
  rw [tongRefusal, if_neg (by omega), if_neg (by omega), slipsSet_iff]
  refine ⟨fun hold => if_pos hold, fun hold loose => ?_, fun hold set => ?_⟩
  · rw [hold]; exact if_pos (not_not.1 loose)
  · rw [hold]; exact if_neg set

/-! ## The well centre (R189) -/

theorem governHandler_passed {v : Nat} (passed : handlerRefusal v s = none) :
    governHandler f v s = (some f, if v = 1 then claimHandler s else s) := by
  rw [governHandler, passed]

theorem governHandler_refused {v cause aux : Nat} (refused : handlerRefusal v s = some (cause, aux))
    (claimed : ¬(v = 1 ∧ applied s = false ∧ s.gov.holder = .none)) :
    governHandler f v s = refuse srcWellCentreRefused cause aux f s := by
  rw [governHandler, refused]
  dsimp only
  rw [if_neg claimed]

theorem governHandler_refused_claims {cause aux : Nat} (refused : handlerRefusal 1 s = some (cause, aux))
    (observe : s.line.mode = .observe) (free : s.gov.holder = .none) :
    governHandler f 1 s =
      ((refuse srcWellCentreRefused cause aux f s).1, claimHandler (refuse srcWellCentreRefused cause aux f s).2) := by
  rw [governHandler, refused]
  dsimp only
  rw [if_pos ⟨rfl, applied_eq_false (not_govern observe), free⟩]

theorem handlerRefusal_value {v : Nat} (large : 1 < v) : handlerRefusal v s = some (5, v) := if_pos large

theorem handlerRefusal_held (hold : actionInForce s .holdHandler = true) : handlerRefusal 1 s = some (3, 0) :=
  (if_neg (by decide)).trans ((if_neg (by decide)).trans (if_pos hold))

theorem handlerRefusal_holder (hold : actionInForce s .holdHandler = false) : handlerRefusal 1 s =
    match s.gov.holder with
    | .topDrive => some (1, min 65535 (s.gov.lastBlock.getD 65535))
    | .handler => some (2, 0)
    | .none => none :=
  (if_neg (by decide)).trans ((if_neg (by decide)).trans (if_neg (by rw [hold]; exact Bool.false_ne_true)))

/-- A command refused while held, in OBSERVE, takes a claim that nobody holds (R189). -/
theorem governHandler_held_claims (hold : actionInForce s .holdHandler = true) (observe : s.line.mode = .observe)
    (free : s.gov.holder = .none) :
    (governHandler f 1 s).1 = some f ∧
      SameButEvents { s with gov := { s.gov with holder := .handler, moving := false } } (governHandler f 1 s).2 ∧
      Occurred srcWellCentreRefused (BitVec.ofNat 32 (3 * 65536)) false s (governHandler f 1 s).2 := by
  obtain ⟨sent, -, occurred⟩ := isRefused_refuse (f := f) (s := s) (src := srcWellCentreRefused) (by decide) 3 0
  have only : EventOnly s (refuse srcWellCentreRefused 3 0 f s).2 := raise_eventOnly _ _
  rw [governHandler_refused_claims (handlerRefusal_held hold) observe free]
  refine ⟨sent.trans (if_neg (not_govern observe)), ?_, ?_⟩
  · have same := (only.setGov { s.gov with holder := .handler, moving := false }).same
    have claim : claimHandler (refuse srcWellCentreRefused 3 0 f s).2 =
        (refuse srcWellCentreRefused 3 0 f s).2.setGov { s.gov with holder := .handler, moving := false } := by
      rw [claimHandler, only.gov]
    rw [claim]
    exact same
  · rw [show (s.line.mode == .govern) = false from applied_eq_false (not_govern observe)] at occurred
    exact occurred

end

/-! ## The end of a step with a rig command (R19, R179) -/

section
variable {s : State} {f : Frame}

theorem govern_role {r : Role} {d : Decision} (role : roleOf s f = some r) (is : governRole r f s = d) :
    govern f s = d := by
  rw [govern, role]
  exact is

/-- The sources of the refusals of rig commands. -/
theorem rigSource_apart {src : Source}
    (h : src ∈ [srcHoistHeld, srcSlipsRefused, srcTongRefused, srcWellCentreRefused]) :
    src ≠ srcPumpClamp ∧ src ≠ srcQueueFull := by
  simp only [List.mem_cons, List.not_mem_nil, or_false] at h
  rcases h with rfl | rfl | rfl | rfl <;> exact ⟨by decide, by decide⟩

variable {rest : List Frame} {r : Role}

/-- An occurrence of the decision, at the end of the step. -/
theorem rigRaised {src : Source} {detail : BitVec 32} {a : Bool} {u t : State}
    (rig : src ∈ [srcHoistHeld, srcSlipsRefused, srcTongRefused, srcWellCentreRefused])
    (records : u.line.records = s.line.records) (event : t.event = u.event) (same : t.line.records = u.line.records)
    (h : Occurred src detail a (commandTaken rest s) u) : Occurred src detail a s (admitted s t) := by
  have base : Occurred src detail a s u := h
  have grows : s.line.records <+: u.line.records := by rw [records]
  have more : u.line.records <+: t.line.records := by rw [same]
  obtain ⟨apart, notFull⟩ := rigSource_apart rig
  exact (base.keep (by rw [event]) grows more).admitted apart notFull (grows.trans more) s

/-- The state that follows a drop and the one before it: the ends of the two steps that serve from there differ in the
event unit's share and in the records that enter. -/
theorem serves_again {u x : State} (closed : Closed s) (offers : OffersNothing s u) (served : OffersNothing u x) :
    SameButRecords x (admitted u x) := by
  have kept := offers.trans served
  have room : recordRoom x ≤ recordRoom s := by rw [recordRoom, kept.records]; exact Nat.le_refl _
  have closedX := closed.keep kept.offers room
  unfold admitted
  split
  · exact SameButRecords.refl x
  · exact admission_sameRecords _ _ x closedX

end

end Sys2Proof.Machine

/-! # Rig commands are governed (O12) -/

namespace Sys2Proof.Machine

section
variable {s : State} {f : Frame} {w : Word} {vs : List Word}

theorem hoist_governed (values : f.values = w :: vs) (role : roleOf s f = some .hoist) :
    let near := match held s 7, settings s with
      | some b, some g => b ≤ g.handlerClearance + g.lowerMargin
      | _, _ => True
    (0 ≤ w.toInt → govern f s = (some f, s)) ∧
    (w.toInt < 0 → actionInForce s .holdHoistLower = true → IsRefused srcHoistHeld 1 w.toNat f s (govern f s)) ∧
    (w.toInt < 0 → actionInForce s .holdHoistLower = false → s.gov.holder = .handler → near →
      IsRefused srcHoistHeld 2 w.toNat f s (govern f s)) ∧
    (w.toInt < 0 → actionInForce s .holdHoistLower = false → ¬(s.gov.holder = .handler ∧ near) →
      govern f s = (some f, s)) := by
  have is : govern f s = governHoist f w s := govern_role role (by rw [governRole, values])
  have apart : srcHoistHeld ≠ srcPumpClamp := by decide
  rw [is]
  refine ⟨governHoist_raising, fun down hold => ?_, fun down hold handler near => ?_, fun down hold clear => ?_⟩
  · rw [governHoist_held down hold]; exact isRefused_refuse apart 1 _
  · rw [governHoist_margin down hold ⟨handler, blockInMargin_iff.2 near⟩]; exact isRefused_refuse apart 2 _
  · exact governHoist_lowering down hold fun h => clear ⟨h.1, blockInMargin_iff.1 h.2⟩

theorem slips_governed (values : f.values = w :: vs) (role : roleOf s f = some .slips) :
    (w.toNat = 1 → govern f s = (some f, s)) ∧
    (1 < w.toNat → IsRefused srcSlipsRefused 3 w.toNat f s (govern f s)) ∧
    (w.toNat = 0 → s.channels[(6 : Ch)].state ≠ .live → IsRefused srcSlipsRefused 1 0 f s (govern f s)) ∧
    (∀ h g, w.toNat = 0 → s.channels[(6 : Ch)].state = .live → held s 6 = some h → settings s = some g →
      let load : Int := (h : Int) * 10 - g.blockWeight
      (s.depth.buoyed * g.slipsReleasePercent ≤ load * 100 → govern f s = (some f, s)) ∧
      (load * 100 < s.depth.buoyed * g.slipsReleasePercent → IsRefused srcSlipsRefused 2 h f s (govern f s))) := by
  have is : govern f s = governSlips f w.toNat s := govern_role role (by rw [governRole, values])
  have apart : srcSlipsRefused ≠ srcPumpClamp := by decide
  rw [is]
  refine ⟨fun set => ?_, fun large => ?_, fun release dead => ?_, fun h g release live hook active => ⟨fun carried => ?_,
    fun light => ?_⟩⟩
  · rw [set]; exact governSlips_set
  · rw [governSlips_value large]; exact isRefused_refuse apart 3 _
  · rw [release, governSlips_dead dead]; exact isRefused_refuse apart 1 0
  · rw [release, governSlips_release live hook active]; exact if_pos carried
  · rw [release, governSlips_release live hook active, if_neg (by omega)]; exact isRefused_refuse apart 2 h

theorem tong_governed (values : f.values = w :: vs) (role : roleOf s f = some .tong) :
    (w.toNat = 0 → govern f s = (some f, s)) ∧
    (2 < w.toNat → IsRefused srcTongRefused 5 w.toNat f s (govern f s)) ∧
    (w.toNat = 1 ∨ w.toNat = 2 → actionInForce s .holdTong = true →
      IsRefused srcTongRefused 1 w.toNat f s (govern f s)) ∧
    (w.toNat = 1 ∨ w.toNat = 2 → actionInForce s .holdTong = false → ¬SlipsSet s →
      IsRefused srcTongRefused 2 w.toNat f s (govern f s)) ∧
    (w.toNat = 1 → actionInForce s .holdTong = false → SlipsSet s → s.rod.candidate = none →
      IsRefused srcTongRefused 3 w.toNat f s (govern f s)) ∧
    (w.toNat = 1 → actionInForce s .holdTong = false → SlipsSet s → s.rod.candidate ≠ none → govern f s = (some f, s)) ∧
    (w.toNat = 2 → actionInForce s .holdTong = false → SlipsSet s → s.rod.string = [] →
      IsRefused srcTongRefused 4 w.toNat f s (govern f s)) ∧
    (w.toNat = 2 → actionInForce s .holdTong = false → SlipsSet s → s.rod.string ≠ [] → govern f s = (some f, s)) := by
  have is : govern f s = governTong f w.toNat s := govern_role role (by rw [governRole, values])
  rw [is]
  have refused {cause : Nat} (refusal : tongRefusal w.toNat s = some cause) :
      IsRefused srcTongRefused cause w.toNat f s (governTong f w.toNat s) := by
    rw [governTong_refused refusal]
    exact isRefused_refuse (by decide) cause _
  refine ⟨fun zero => governTong_passed ?_, fun large => refused (if_pos large),
    fun asks hold => refused ((tongRefusal_cases asks).1 hold),
    fun asks hold loose => refused ((tongRefusal_cases asks).2.1 hold loose),
    fun one hold set no => refused ?_, fun one hold set candidate => governTong_passed ?_,
    fun two hold set empty => refused ?_, fun two hold set string => governTong_passed ?_⟩
  · rw [tongRefusal, if_neg (by omega), if_pos zero]
  · rw [(tongRefusal_cases (.inl one)).2.2 hold set, if_pos ⟨one, no⟩]
  · rw [(tongRefusal_cases (.inl one)).2.2 hold set, if_neg fun h => candidate h.2, if_neg (by omega)]
  · rw [(tongRefusal_cases (.inr two)).2.2 hold set, if_neg (by omega), if_pos ⟨two, empty⟩]
  · rw [(tongRefusal_cases (.inr two)).2.2 hold set, if_neg (by omega), if_neg fun h => string h.2]

theorem handler_governed (values : f.values = w :: vs)
    (role : roleOf s f = some .handler) :
    (w.toNat = 0 → govern f s = (some f, s)) ∧
    (1 < w.toNat → IsRefused srcWellCentreRefused 5 w.toNat f s (govern f s)) ∧
    (w.toNat = 1 → actionInForce s .holdHandler = true → (s.line.mode = .govern ∨ s.gov.holder ≠ .none) →
      IsRefused srcWellCentreRefused 3 0 f s (govern f s)) ∧
    (w.toNat = 1 → actionInForce s .holdHandler = true → s.line.mode = .observe → s.gov.holder = .none →
      (govern f s).1 = some f ∧
        SameButEvents { s with gov := { s.gov with holder := .handler, moving := false } } (govern f s).2 ∧
        Occurred srcWellCentreRefused (BitVec.ofNat 32 (3 * 65536)) false s (govern f s).2) ∧
    (w.toNat = 1 → actionInForce s .holdHandler = false → s.gov.holder = .topDrive →
      IsRefused srcWellCentreRefused 1 (min 65535 (s.gov.lastBlock.getD 65535)) f s (govern f s)) ∧
    (w.toNat = 1 → actionInForce s .holdHandler = false → s.gov.holder = .handler →
      IsRefused srcWellCentreRefused 2 0 f s (govern f s)) ∧
    (w.toNat = 1 → actionInForce s .holdHandler = false → s.gov.holder = .none →
      govern f s = (some f, { s with gov := { s.gov with holder := .handler, moving := false } })) := by
  have is : govern f s = governHandler f w.toNat s := govern_role role (by rw [governRole, values])
  rw [is]
  have refused {cause aux : Nat} (refusal : handlerRefusal w.toNat s = some (cause, aux))
      (claimed : ¬(w.toNat = 1 ∧ applied s = false ∧ s.gov.holder = .none)) :
      IsRefused srcWellCentreRefused cause aux f s (governHandler f w.toNat s) := by
    rw [governHandler_refused refusal claimed]
    exact isRefused_refuse (by decide) cause aux
  have holder {cause aux : Nat} (one : w.toNat = 1) (hold : actionInForce s .holdHandler = false)
      (is : (match s.gov.holder with
        | .topDrive => some (1, min 65535 (s.gov.lastBlock.getD 65535))
        | .handler => some (2, 0)
        | .none => none) = some (cause, aux)) (taken : s.gov.holder ≠ .none) :
      IsRefused srcWellCentreRefused cause aux f s (governHandler f w.toNat s) :=
    refused (by rw [one, handlerRefusal_holder hold]; exact is) fun h => taken h.2.2
  refine ⟨fun zero => ?_, fun large => refused (handlerRefusal_value large) (by omega), fun one hold h => ?_,
    fun one hold observe free => ?_, fun one hold top => ?_, fun one hold handler => ?_, fun one hold free => ?_⟩
  · rw [governHandler_passed (by rw [zero]; exact (if_neg (by decide)).trans (if_pos rfl)), if_neg (by omega)]
  · refine refused (by rw [one]; exact handlerRefusal_held hold) fun ⟨_, clear, free⟩ => ?_
    rcases h with h | h
    · rw [applied_eq_true h] at clear; cases clear
    · exact h free
  · rw [one]; exact governHandler_held_claims hold observe free
  · exact holder one hold (by rw [top]) (by rw [top]; decide)
  · exact holder one hold (by rw [handler]) (by rw [handler]; decide)
  · have passed : handlerRefusal w.toNat s = none := by rw [one, handlerRefusal_holder hold, free]
    rw [governHandler_passed passed, if_pos one]
    rfl

/-! ## What the FIELD transmitter makes of a decision (R19, R179) -/

variable {rest : List Frame} {r : Role}

theorem commandTaken_offersNothing : OffersNothing s (commandTaken rest s) := .of rfl rfl rfl rfl

/-- In OBSERVE a rig command is begun as it stands, with what its decision leaves. -/
theorem exec_command_observed (up : s.line.fieldLink.up = true) (none : s.line.injections = [])
    (head : s.line.downstream = f :: rest) (role : roleOf s f = some r) (pump1 : r ≠ .pump1) (pump2 : r ≠ .pump2)
    (settled : Settled s) (observe : s.line.mode = .observe) :
    let after := (govern f (commandTaken rest s)).2
    ∃ t, exec .fieldTransmitBegin s = .next t ∧
      (∀ (src : Source) (detail : BitVec 32),
        src ∈ [srcHoistHeld, srcSlipsRefused, srcTongRefused, srcWellCentreRefused] →
        Occurred src detail false (commandTaken rest s) after → Occurred src detail false s t) ∧
      SameButRecords (beginField f ((commandTaken rest s).setGov after.gov)) t := by
  have decided := govern_rigDecided (s := commandTaken rest s) role pump1 pump2
  have offers := commandTaken_offersNothing.trans (govern_offersNothing f (commandTaken rest s))
  rcases is : govern f (commandTaken rest s) with ⟨o, v⟩
  rw [is] at decided offers
  have sent : o = some f := decided.frame.resolve_right fun h => by
    rw [applied_eq_false (s := commandTaken rest s) (not_govern observe)] at h
    cases h.2.1
  subst sent
  have begun := decided.events.beginField f
  have base := begun.sameRecords.trans (admitted_sameRecords settled
    (offers.offers.trans ⟨rfl, rfl, rfl, rfl⟩) (show (beginField f v).line.records = _ from offers.records))
  exact ⟨_, exec_command up (by rw [observe]; decide) none head is,
    fun src detail rig occurred => rigRaised rig offers.records rfl rfl occurred, base⟩

/-- After a drop the transmitter serves again at once. -/
theorem exec_command_dropped (up : s.line.fieldLink.up = true) (none : s.line.injections = [])
    (head : s.line.downstream = f :: rest) (settled : Settled s)
    (dropped : (govern f (commandTaken rest s)).1 = Option.none) :
    let after := (govern f (commandTaken rest s)).2
    (∃ t u, exec .fieldTransmitBegin s = .next t ∧ exec .fieldTransmitBegin after = .next u ∧
      t = { u with
        event := t.event
        line := { u.line with
          statusDue := t.line.statusDue, injections := t.line.injections, records := t.line.records,
          serial := t.line.serial, highWater := t.line.highWater } }) ∧
    (rest = [] → after.line.injections = [] →
      ∃ t, exec .fieldTransmitBegin s = .next t ∧ SameButRecords (commandTaken rest s) t ∧
        ∀ (src : Source) (detail : BitVec 32),
          src ∈ [srcHoistHeld, srcSlipsRefused, srcTongRefused, srcWellCentreRefused] →
          Occurred src detail true (commandTaken rest s) after → Occurred src detail true s t) := by
  have offers := commandTaken_offersNothing.trans (govern_offersNothing f (commandTaken rest s))
  rcases is : govern f (commandTaken rest s) with ⟨o, v⟩
  rw [is] at dropped offers
  obtain rfl : o = Option.none := dropped
  have drop := govern_dropped is
  have mode : s.line.mode ≠ .bypass := by rw [show s.line.mode = .govern from drop.mode]; decide
  have downstream : v.line.downstream = rest := by rw [drop.events.line]; rfl
  have run : exec .fieldTransmitBegin s = .next (admitted s (serveField (rest.length + 1) v)) := by
    rw [exec_fieldTransmitBegin_serves up mode, serveField_dropped _ none head is, head]
    rfl
  have again : exec .fieldTransmitBegin v = .next (admitted v (serveField (rest.length + 1) v)) := by
    rw [exec_fieldTransmitBegin_serves (by rw [drop.events.line]; exact up) (by rw [drop.events.line]; exact mode),
      downstream]
  have served := serveField_offersNothing (rest.length + 1) v
  have kept := offers.trans served
  have first := admitted_sameRecords settled kept.offers kept.records
  refine ⟨⟨_, _, run, again, ?_⟩, fun last noInjection => ⟨_, run, ?_, fun src detail rig occurred => ?_⟩⟩
  · rw [(serves_again settled.closed offers served).1]
    exact first.1
  · rw [serveField_empty _ noInjection (downstream.trans last)] at first ⊢
    exact drop.events.sameRecords.trans first
  · rw [serveField_empty _ noInjection (downstream.trans last)]
    exact rigRaised rig offers.records rfl rfl occurred

end

/-- Settles O12: each role's rule said once; a command that is sent is begun, and one that is dropped is passed over. -/
theorem rigCommandsAreGoverned : Obligations.RigCommandsAreGoverned := by
  refine ⟨fun s f w vs mode values => ⟨hoist_governed values, slips_governed values, tong_governed values,
    handler_governed values⟩, fun s f rest r up mode none head role pump1 pump2 => ⟨fun claim sent => ?_,
    exec_command_observed up none head role pump1 pump2, exec_command_dropped up none head⟩⟩
  rw [exec_command up mode none head sent]
  exact congrArg Host.Outcome.next (SameWaits.admitted ⟨rfl, rfl, rfl, rfl, rfl⟩)

end Sys2Proof.Machine

/-! # The TICKET record of an open ticket (R7, R161) -/

namespace Sys2Proof.Machine

/-! ## Lists of a vector's values with their keys -/

section
variable {α : Type}

theorem zipIdx_map_fst (l : List α) : ∀ n, (l.zipIdx n).map Prod.fst = l := by
  induction l with
  | nil => exact fun _ => rfl
  | cons a l ih => exact fun n => congrArg (a :: ·) (ih (n + 1))

variable (p : α → Bool) (l : List α)

theorem filter_zipIdx_map_fst : (l.zipIdx.filter fun x => p x.1).map Prod.fst = l.filter p := by
  have := List.filter_map (p := p) (f := Prod.fst) (l := l.zipIdx)
  rw [zipIdx_map_fst] at this
  exact this.symm

theorem filter_zipIdx_length : (l.zipIdx.filter fun x => p x.1).length = l.countP p := by
  rw [← List.length_map (f := Prod.fst), filter_zipIdx_map_fst, List.countP_eq_length_filter]

theorem filter_zipIdx_map {β : Type} (f : α → β) :
    (l.zipIdx.filter fun x => p x.1).map (fun x => f x.1) = (l.filter p).map f := by
  have := congrArg (List.map f) (filter_zipIdx_map_fst p l)
  rw [List.map_map] at this
  exact this

theorem filter_zipIdx_any (q : α → Bool) :
    (l.zipIdx.filter fun x => p x.1).any (fun x => q x.1) = l.any fun x => p x && q x := by
  have mapped : (l.zipIdx.filter fun x => p x.1).any (fun x => q x.1) =
      ((l.zipIdx.filter fun x => p x.1).map Prod.fst).any q := by
    rw [List.any_map]; rfl
  rw [mapped, filter_zipIdx_map_fst, List.any_filter]

end

/-! ## The frames of the lines (R7) -/

theorem lineFrames_flatten (l : List (TicketLine × Nat)) : (lineFrames l).flatten = l.flatMap lineWords := by
  induction l using lineFrames.induct with
  | case1 a b rest ih => simp only [lineFrames, List.flatten_cons, ih, List.flatMap_cons, List.append_assoc]
  | case2 a => simp [lineFrames]
  | case3 => rfl

theorem lineWords_length (l : TicketLine × Nat) : (lineWords l).length = 7 := rfl

/-- All line frames but the last hold two lines. -/
theorem lineFrames_pairs (l : List (TicketLine × Nat)) : ∀ words ∈ (lineFrames l).dropLast, words.length = 14 := by
  induction l using lineFrames.induct with
  | case1 a b rest ih =>
    rw [lineFrames]
    cases e : lineFrames rest with
    | nil => exact fun words h => by cases h
    | cons x xs =>
      rw [e] at ih
      rw [List.dropLast_cons_cons]
      intro words h
      rcases List.mem_cons.1 h with rfl | h
      · rw [List.length_append, lineWords_length, lineWords_length]
      · exact ih words h
  | case2 a => exact fun words h => by cases h
  | case3 => exact fun words h => by cases h

/-! ## The record -/

section
variable (final : Bool) (c : State)

theorem carriedLines_length : (carriedLines c).length = c.bill.lines.toList.countP fun l => decide (0 < l.quantity) :=
  filter_zipIdx_length (fun l : TicketLine => decide (0 < l.quantity)) _

/-- The TICKET record shows the open ticket it is built of. -/
theorem ticketRecord_shows :
    TicketShows (ticketRecord final c) final c.bill.lines c.bill.lastInterval c.interval.currentClass c where
  type := rfl
  count := by
    simp only [ticketRecord, List.length_cons, lineFrames_length, carriedLines_length]
    omega
  head := by
    have amounts : ((carriedLines c).map fun l => l.1.amount) =
        (c.bill.lines.toList.filter fun l => decide (0 < l.quantity)).map (·.amount) :=
      filter_zipIdx_map (fun l : TicketLine => decide (0 < l.quantity)) _ _
    have saturated : ((carriedLines c).any fun l => l.1.saturated) =
        c.bill.lines.toList.any fun l => decide (0 < l.quantity) && l.saturated :=
      filter_zipIdx_any (fun l : TicketLine => decide (0 < l.quantity)) _ _
    simp only [ticketRecord, amounts, saturated, carriedLines_length, bit, decide_eq_true_eq]
    rfl
  sums := by
    have rods : lineQuantity c keyRods = c.bill.lines[43].quantity := by
      simp [lineQuantity, keyRods]
    have water : lineQuantity c keyWater = c.bill.lines[42].quantity := by
      simp [lineQuantity, keyWater]
    have deferred : w16 (bit c.bill.deferred) = if c.bill.deferred then 1 else 0 := by
      cases c.bill.deferred <;> rfl
    simp only [ticketRecord, rods, water, deferred, quantitySum]
    cases c.bill.lastInterval <;> rfl
  lines := by
    show (lineFrames (carriedLines c)).flatten = _
    rw [lineFrames_flatten]
    rfl
  pairs := lineFrames_pairs (carriedLines c)

/-- What a TICKET record shows of a state is its heading: the job, the ticket and where it opened, the clock, the hole
depth and the deferred tariff. -/
theorem TicketShows.congr {r : RecordBody} {final : Bool} {lines : Vector TicketLine 44} {last : Option Nat} {cls : Nat}
    {c s : State} (h : TicketShows r final lines last cls c) (job : c.bill.jobNumber = s.bill.jobNumber)
    (ticket : c.bill.ticketNumber = s.bill.ticketNumber) (time : c.bill.openTime = s.bill.openTime)
    (hole : c.bill.openHole = s.bill.openHole) (deferred : c.bill.deferred = s.bill.deferred)
    (depth : c.depth = s.depth) : TicketShows r final lines last cls s := by
  obtain ⟨type, count, head, sums, lineWords, pairs⟩ := h
  rw [job, ticket, time, hole, depth] at head
  rw [deferred] at sums
  exact ⟨type, count, head, sums, lineWords, pairs⟩

end

end Sys2Proof.Machine

/-! # What a cut closes into the open ticket (R139, R140, R156) -/

namespace Sys2Proof.Machine

/-! ## The record of a closed interval goes to the lag unit (R117) -/

theorem EventOnly.setLag {s t : State} (h : EventOnly s t) (l : LagState) : EventOnly (s.setLag l) (t.setLag l) :=
  { h with lag := rfl }

section
variable (r : Strata) (s : State)

theorem profileEnd_eventOnly (pages : List Page) (bottom : Nat) : EventOnly s (profileEnd pages bottom s) := by
  unfold profileEnd
  split
  · exact occurNat_eventOnly _ _ s
  · exact EventOnly.refl s

/-- Besides the event unit's share only the lag unit differs. -/
def BesideLag (s t : State) : Prop := EventOnly (s.setLag t.lag) t

theorem EventOnly.besideLag {s t : State} (h : EventOnly s t) : BesideLag s t := by
  have e := h.setLag t.lag
  exact { e with lag := rfl }

theorem BesideLag.trans {s t u : State} (h : BesideLag s t) (k : BesideLag t u) : BesideLag s u :=
  EventOnly.trans (EventOnly.setLag h u.lag) k

theorem setLag_besideLag (l : LagState) : BesideLag s (s.setLag l) := EventOnly.refl _

theorem releaseUnlagged_besideLag : BesideLag s (releaseUnlagged r s) := by
  unfold releaseUnlagged
  split
  · exact setLag_besideLag s _
  · exact (occurNat_eventOnly _ _ s).besideLag

theorem lagTake_besideLag : BesideLag s (lagTake r s) := by
  unfold lagTake
  split
  · exact releaseUnlagged_besideLag r s
  · next pages _ =>
    have profile := (profileEnd_eventOnly s pages r.bottom).besideLag
    dsimp only
    split
    · exact profile.trans (setLag_besideLag _ _)
    · exact (profile.trans (occurNat_eventOnly _ _ _).besideLag).trans (releaseUnlagged_besideLag r _)

/-! ## The class in force (R143 to R145) -/

theorem classifyClose_class (o : OpenInterval) :
    (classifyClose o r s).interval.currentClass = r.cls.getD s.interval.currentClass := by
  unfold classifyClose
  split
  · next k is => rw [is]; rfl
  · next is => rw [is, (occurNat_eventOnly _ _ s).interval]; rfl

end

section
variable (o : OpenInterval) (t : Trigger) (bottom : Nat) (s : State)

/-- The open interval has been classed and counted, and its record handed to the lag unit, before the billing unit hears
of it (R141). -/
def handedOn : State :=
  let r := buildStrata o t bottom (jobTime s)
  lagTake r (countClosed (classifyClose o r s))

/-- The billing unit takes the class in force after the close (R145, R147). -/
theorem closed_eq : closed o t bottom s = billInterval
    { number := o.number, top := o.top, length := bottom - o.top,
      cls := (handedOn o t bottom s).interval.currentClass, loss := o.loss } (handedOn o t bottom s) := by
  have cls (r : Strata) : r.cls.getD (lagTake r (countClosed (classifyClose o r s))).interval.currentClass =
      (lagTake r (countClosed (classifyClose o r s))).interval.currentClass := by
    rw [(lagTake_besideLag r _).interval]
    show r.cls.getD (classifyClose o r s).interval.currentClass = (classifyClose o r s).interval.currentClass
    rw [classifyClose_class]
    cases r.cls <;> rfl
  rw [closed, cls]
  rfl

theorem handedOn_facts : (handedOn o t bottom s).bill = s.bill ∧ (handedOn o t bottom s).tables = s.tables := by
  have classified : (classifyClose o (buildStrata o t bottom (jobTime s)) s).bill = s.bill ∧
      (classifyClose o (buildStrata o t bottom (jobTime s)) s).tables = s.tables := by
    unfold classifyClose
    split
    · exact ⟨rfl, rfl⟩
    · exact ⟨(occurNat_eventOnly _ _ s).bill, (occurNat_eventOnly _ _ s).tables⟩
  have lag := lagTake_besideLag (buildStrata o t bottom (jobTime s))
    (countClosed (classifyClose o (buildStrata o t bottom (jobTime s)) s))
  exact ⟨lag.bill.trans classified.1, lag.tables.trans classified.2⟩

end

/-! ## The lines after a close (R155, R156) -/

section
variable {s : State}

theorem accrue_line (key q rate : Nat) (s : State) (k : Fin 44) : (accrue key q rate s).bill.lines[k] =
    if k.val = key then s.bill.lines[k].accrue (lineDivisor key) q rate else s.bill.lines[k] := by
  unfold accrue
  split
  · next h =>
    show (s.bill.lines.set key _ h)[k.val] = _
    rw [Vector.getElem_set]
    by_cases e : k.val = key
    · subst e; rw [if_pos rfl, if_pos rfl]; rfl
    · rw [if_neg (Ne.symm e), if_neg e]; rfl
  · next h => rw [if_neg (by have := k.isLt; omega)]

/-- A closed interval's metres on the open ticket, and its loss where it has one (R156). -/
theorem billInterval_lines (n : BillingNotice) (opened : s.bill.ticketOpen = true) (k : Fin 44) :
    (billInterval n s).bill.lines[k] =
      (let pages := activePages s tTariff
       let band := depthBandIn pages n.top
       let l := s.bill.lines[k]
       let metres := if k.val = 4 * n.cls + band then
         l.accrue (lineDivisor k) n.length (metreRateIn pages n.cls band) else l
       if k.val = 32 ∧ n.loss = true then metres.accrue 1000 n.length (lossSurchargeIn pages) else metres) := by
  have metres (key q rate : Nat) : (accrue key q rate s).bill.lines[k] =
      if k.val = key then s.bill.lines[k].accrue (lineDivisor k) q rate else s.bill.lines[k] := by
    rw [accrue_line]
    split
    · next e => rw [← e]
    · rfl
  have noted (u : State) (last : Option Nat) :
      (u.setBill { u.bill with lastInterval := last }).bill.lines[k] = u.bill.lines[k] := rfl
  rw [billInterval, if_pos opened, noted]
  cases loss : n.loss with
  | false =>
    rw [if_neg Bool.false_ne_true, metres]
    exact (if_neg fun h => Bool.false_ne_true h.2).symm
  | true =>
    rw [if_pos rfl, accrue_line, metres]
    simp only [and_true]
    rfl

theorem billInterval_last (n : BillingNotice) (opened : s.bill.ticketOpen = true) :
    (billInterval n s).bill.lastInterval = some n.number := by
  rw [billInterval, if_pos opened]
  rfl

theorem billInterval_interval (n : BillingNotice) (s : State) : (billInterval n s).interval = s.interval := by
  have accrued (key q rate : Nat) (u : State) : (accrue key q rate u).interval = u.interval := by
    rw [accrue_bill]; rfl
  unfold billInterval
  split
  · dsimp only
    show State.interval (if _ then _ else _) = _
    rw [apply_ite State.interval, accrued, accrued, ite_self]
  · rfl

theorem cutInterval_none_of_closed (closed : s.bill.ticketOpen = false) : cutInterval s = none := by
  rw [cutInterval, closed]
  cases s.interval.current <;> rfl

/-- What a close at the hole depth bills: the lines are those of a cut under the class in force afterwards. -/
theorem closed_cut {o : OpenInterval} (t : Trigger) (current : s.interval.current = some o) (length : o.top < s.depth.hole) :
    (closed o t s.depth.hole s).bill.lines = cutLines (closed o t s.depth.hole s).interval.currentClass s ∧
      (closed o t s.depth.hole s).bill.lastInterval = cutLast s := by
  obtain ⟨bill, tables⟩ := handedOn_facts o t s.depth.hole s
  have pages : activePages (handedOn o t s.depth.hole s) tTariff = activePages s tTariff := by
    rw [activePages, activeCopy, tables]; rfl
  rw [closed_eq, billInterval_interval]
  cases opened : s.bill.ticketOpen with
  | false =>
    have none := cutInterval_none_of_closed opened
    have same (n : BillingNotice) : billInterval n (handedOn o t s.depth.hole s) = handedOn o t s.depth.hole s :=
      if_neg (by rw [bill, opened]; exact Bool.false_ne_true)
    rw [same, bill, cutLines, cutLast, none]
    exact ⟨rfl, rfl⟩
  | true =>
    have cut : cutInterval s = some o := by
      rw [cutInterval, current]
      exact Option.filter_some_pos (by simp [opened, length])
    have opened' : (handedOn o t s.depth.hole s).bill.ticketOpen = true := by rw [bill, opened]
    refine ⟨Vector.ext fun i hi => ?_, ?_⟩
    · have line := billInterval_lines (s := handedOn o t s.depth.hole s)
        { number := o.number, top := o.top, length := s.depth.hole - o.top,
          cls := (handedOn o t s.depth.hole s).interval.currentClass, loss := o.loss } opened' ⟨i, hi⟩
      rw [pages, bill] at line
      rw [cutLines, cut]
      dsimp only
      rw [Vector.getElem_ofFn]
      exact line
    · rw [billInterval_last _ opened', cutLast, cut]
      rfl

/-! ## The two cuts (R139, R140) -/

/-- A cut has billed what it closes: the lines and the last interval are those stated of it. -/
def Cut (s c : State) : Prop :=
  c.bill.lines = cutLines c.interval.currentClass s ∧ c.bill.lastInterval = cutLast s

theorem cut_of_no_length (none : openLength s = 0) : cutInterval s = Option.none := by
  unfold openLength at none
  rw [cutInterval]
  split at none
  · next o current =>
    rw [current]
    exact Option.filter_some_neg (by simp; omega)
  · next current => rw [current]; rfl

theorem Cut.of_no_length {c : State} (none : openLength s = 0) (bill : c.bill = s.bill) : Cut s c := by
  rw [Cut, cutLines, cutLast, cut_of_no_length none, bill]
  exact ⟨rfl, rfl⟩

theorem openLength_pos (long : 0 < openLength s) :
    ∃ o, s.interval.current = some o ∧ o.top < s.depth.hole := by
  unfold openLength at long
  split at long
  · next o current => exact ⟨o, current, by omega⟩
  · cases long

theorem shiftCut_cut (s : State) : Cut s (shiftCut s) := by
  unfold shiftCut
  split
  · next long =>
    obtain ⟨o, current, length⟩ := openLength_pos long
    rw [closeInterval_some s current, if_neg (by decide)]
    exact closed_cut .shift current length
  · next short => exact .of_no_length (by omega) rfl

theorem endCut_cut (s : State) : Cut s (endCut s) := by
  unfold endCut
  split
  · next long =>
    obtain ⟨o, current, length⟩ := openLength_pos long
    rw [closeInterval_some s current, if_pos rfl]
    exact closed_cut .theEnd current length
  · next short => exact .of_no_length (by omega) rfl

end

end Sys2Proof.Machine

/-! # SHIFT_CLOSE (R163) -/

namespace Sys2Proof.Machine

/-! ## A ticket that a step puts into the out-buffer (R23, R162) -/

section
variable {s v : State} {r : RecordBody}

/-- Behind a ROD or TICKET record that does not fit a step's end changes the event unit's share alone. -/
theorem admitted_held {p : Producer} {first : RecordBody} (event : p ≠ .event) (status : p ≠ .status)
    (offer : firstOffer v = some (p, first)) (large : recordRoom v < first.frames.length) :
    EventOnly v (admitted s v) := by
  unfold admitted
  split
  · exact EventOnly.refl v
  · exact admission_held event status _ _ v offer large

/-- With no ROD record waiting and room for it, a new ticket enters at the end of its step, ahead of the others. -/
theorem admitted_ticket_enters (free : s.bill.outBuffer = none) (ticket : v.bill.outBuffer = some r)
    (out : v.rod.out = []) (fits : v.line.records.length + r.frames.length ≤ 64) :
    v.line.records ++ framesOf r.type v.line.serial r.frames <+: (admitted s v).line.records ∧
      (admitted s v).bill.outBuffer = none := by
  have before : isWaiting s .ticket = false := not_waiting_ticket.2 free
  rw [admitted_of_begun before (isWaiting_of_offered (r := r) ticket)]
  exact admission_ticket (2 * 64 + 4) (waiting s) out ticket fits

/-- Otherwise it stays in the out-buffer. -/
theorem admitted_ticket_stays (settled : Settled s) (ticket : v.bill.outBuffer = some r) (out : v.rod.out = s.rod.out)
    (records : v.line.records = s.line.records) (frames : 0 < r.frames.length)
    (no : ¬(s.rod.out = [] ∧ s.line.records.length + r.frames.length ≤ 64)) : EventOnly v (admitted s v) := by
  cases e : s.rod.out with
  | cons first more =>
    obtain ⟨-, large⟩ := settled.rod_large e
    have own : offeredRecord v .rod = some first := congrArg List.head? (out.trans e)
    have head : (waiting v).head? = some .rod :=
      waiting_head? (before := []) rfl (fun _ h => absurd h List.not_mem_nil) (isWaiting_of_offered own)
    exact admitted_held (by decide) (by decide) (firstOffer_of_head? head own)
      (by rw [recordRoom, records]; exact large)
  | nil =>
    have head := waiting_head?_ticket (out.trans e) ticket
    have large : recordRoom v < r.frames.length := by
      rw [recordRoom, records]
      by_contra fits
      exact no ⟨e, by omega⟩
    exact admitted_held (by decide) (by decide) (firstOffer_of_head? head ticket) large

/-- A step that puts a ticket into a free out-buffer: the ticket has entered, or stays where it is. -/
theorem admitted_ticket (settled : Settled s) (free : s.bill.outBuffer = none) (ticket : v.bill.outBuffer = some r)
    (type : r.type = 3) (frames : 0 < r.frames.length) (out : v.rod.out = s.rod.out)
    (records : v.line.records = s.line.records) (serial : v.line.serial = s.line.serial) :
    if s.rod.out = [] ∧ s.line.records.length + r.frames.length ≤ 64 then
      (admitted s v).bill.outBuffer = none ∧ framesOf 3 s.line.serial r.frames <+: newFrames s (admitted s v)
    else (admitted s v).bill.outBuffer = some r := by
  split
  · next enters =>
    obtain ⟨grows, gone⟩ := admitted_ticket_enters (r := r) free ticket (out.trans enters.1)
      (by rw [records]; exact enters.2)
    refine ⟨gone, ?_⟩
    rw [records, serial, type] at grows
    obtain ⟨more, is⟩ := grows
    rw [newFrames, ← is, List.append_assoc, List.drop_left]
    exact List.prefix_append _ more
  · next no => rw [(admitted_ticket_stays settled ticket out records frames no).bill, ticket]

/-! ## The ticket that a cut closes (R161, R163) -/

/-- The TICKET record of a cut state shows the open ticket of the state before the cut. -/
theorem Cut.ticket {c : State} (cut : Cut s c) (by' : ByClose s c) (final : Bool) :
    TicketShows (ticketRecord final c) final (cutLines c.interval.currentClass s) (cutLast s) c.interval.currentClass s := by
  obtain ⟨lines, last⟩ := cut
  have shows := ticketRecord_shows final c
  rw [lines, last] at shows
  exact shows.congr (by rw [by'.bill]) (by rw [by'.bill]) (by rw [by'.bill]) (by rw [by'.bill]) (by rw [by'.bill]) by'.depth

theorem applyDeferred_line (s : State) : ∃ d i, (applyDeferred s).line = { s.line with statusDue := d, injections := i } := by
  unfold applyDeferred
  split
  · exact ⟨_, _, (occurNat_eventOnly _ _ _).line⟩
  · exact ⟨_, _, rfl⟩

theorem applyDeferred_units (s : State) : (applyDeferred s).rod = s.rod ∧ (applyDeferred s).circ = s.circ ∧
    (applyDeferred s).channels = s.channels ∧ (applyDeferred s).gov = s.gov ∧ (applyDeferred s).lag = s.lag := by
  unfold applyDeferred
  split
  · have unit := occurNat_eventOnly srcTariffApplied s.bill.ticketNumber
      ((activateTable tTariff s).setBill { (activateTable tTariff s).bill with deferred := false })
    exact ⟨unit.rod, unit.circ, unit.channels, unit.gov, unit.lag⟩
  · exact ⟨rfl, rfl, rfl, rfl, rfl⟩

/-- Of two states the units that a ticket's closing leaves alone are the same, and of the line interface all but what an
occurrence brings. -/
structure Untouched (s t : State) : Prop where
  line : ∃ d i, t.line = { s.line with statusDue := d, injections := i }
  depth : t.depth = s.depth
  rod : t.rod = s.rod
  circ : t.circ = s.circ
  channels : t.channels = s.channels
  gov : t.gov = s.gov

theorem Untouched.trans {s t u : State} (h : Untouched s t) (k : Untouched t u) : Untouched s u := by
  obtain ⟨d, i, line⟩ := h.line
  obtain ⟨d', i', line'⟩ := k.line
  exact ⟨⟨d', i', by rw [line', line]⟩, k.depth.trans h.depth, k.rod.trans h.rod, k.circ.trans h.circ,
    k.channels.trans h.channels, k.gov.trans h.gov⟩

/-- The records and the requests are as they were. -/
theorem Untouched.queues {s t : State} (h : Untouched s t) : t.line.records = s.line.records ∧
    t.line.serial = s.line.serial ∧ t.line.requests = s.line.requests ∧ t.line.response = s.line.response ∧
    t.line.completion = s.line.completion := by
  obtain ⟨d, i, line⟩ := h.line
  rw [line]
  exact ⟨rfl, rfl, rfl, rfl, rfl⟩

theorem ByClose.untouched {s t : State} (h : ByClose s t) : Untouched s t :=
  ⟨⟨_, _, h.line⟩, h.depth, h.rod, h.circ, h.channels, h.gov⟩

theorem applyDeferred_untouched (s : State) : Untouched s (applyDeferred s) :=
  have units := applyDeferred_units s
  ⟨applyDeferred_line s, applyDeferred_clock s, units.1, units.2.1, units.2.2.1, units.2.2.2.1⟩

theorem setBill_untouched (s : State) (b : BillState) : Untouched s (s.setBill b) :=
  ⟨⟨_, _, rfl⟩, rfl, rfl, rfl, rfl, rfl⟩

/-- The cut ticket has become a TICKET record, in the queue or in the out-buffer, and the lines of the next are clear. -/
def TicketClosed (final : Bool) (s t : State) : Prop :=
  let cls := t.interval.currentClass
  (∃ r, TicketShows r final (cutLines cls s) (cutLast s) cls s ∧
      if s.rod.out = [] ∧ s.line.records.length + r.frames.length ≤ 64 then
        t.bill.outBuffer = none ∧ framesOf 3 s.line.serial r.frames <+: newFrames s t
      else t.bill.outBuffer = some r) ∧
  ∀ key : Fin 44, t.bill.lines[key] = { (cutLines cls s)[key] with quantity := 0, amount := 0 }

/-- A step that has put the record of a cut state into the out-buffer, at its end. -/
theorem ticketClosed_of_cut {s c w : State} {final : Bool} (settled : Settled s) (free : s.bill.outBuffer = none)
    (shows : TicketShows (ticketRecord final c) final (cutLines c.interval.currentClass s) (cutLast s)
      c.interval.currentClass s) (billed : c.bill.lines = cutLines c.interval.currentClass s) (out : w.bill.outBuffer = some (ticketRecord final c))
    (lines : w.bill.lines = c.bill.lines.map TicketLine.nextTicket)
    (cls : w.interval.currentClass = c.interval.currentClass) (rod : w.rod = s.rod)
    (records : w.line.records = s.line.records) (serial : w.line.serial = s.line.serial) :
    TicketClosed final s (admitted s w) ∧ (admitted s w).rod = s.rod := by
  have few := ticketRecord_length final c
  have admits := admitted_admits s w
  have ticket := admitted_ticket settled free out rfl (by omega) (congrArg RodState.out rod) records serial
  have outs := admitted_rodOut (t := w) settled (congrArg RodState.out rod) records
  have same : (admitted s w).interval.currentClass = c.interval.currentClass := by rw [admits.interval, cls]
  have kept : (admitted s w).rod = s.rod := by rw [admits.rod, outs, rod]
  refine ⟨⟨⟨ticketRecord final c, ?_, ticket⟩, fun key => ?_⟩, kept⟩
  · rw [same]
    exact shows
  · rw [same, ← billed, admits.bill]
    show w.bill.lines[key] = _
    rw [lines, Fin.getElem_fin, Vector.getElem_map]
    rfl

theorem closeShift_untouched (s : State) : Untouched s (closeShift s) :=
  (((shiftCut_byClose s).untouched.trans (setBill_untouched _ _)).trans (applyDeferred_untouched _)).trans
    (setBill_untouched _ _)

theorem closeShift_bill (s : State) : (closeShift s).bill = { s.bill with
    outBuffer := some (ticketRecord false (shiftCut s))
    lines := (shiftCut s).bill.lines.map TicketLine.nextTicket
    deferred := false
    ticketNumber := nextTicketNumber s.bill.ticketNumber
    openTime := jobTime s
    openHole := s.depth.hole
    lastInterval := none } := by
  have cut := shiftCut_byClose s
  obtain ⟨c, is⟩ : ∃ c, c = shiftCut s := ⟨_, rfl⟩
  simp only [closeShift, nextTicket, State.setBill_bill, applyDeferred_bill, applyDeferred_clock, jobTime, snapshot]
  rw [← is] at cut ⊢
  simp only [State.setBill_depth, cut.depth]
  rw [cut.bill]

theorem closeShift_class (s : State) : (closeShift s).interval.currentClass = (shiftCut s).interval.currentClass :=
  congrArg IntervalState.currentClass (applyDeferred_interval (snapshot false (shiftCut s)))

end

/-! ## The request -/

section
variable {s : State} {f : Frame} {rest : List Frame}

theorem shiftCloseBody_noJob (job : s.bill.job = .noJob) : shiftCloseBody f s = (s, some (Reply.echo .noJob)) := if_pos job

theorem shiftCloseBody_busy (job : s.bill.job ≠ .noJob) (full : s.bill.outBuffer ≠ none) :
    shiftCloseBody f s = (s, some (Reply.echo .busy)) :=
  (if_neg job).trans (if_pos (Option.isSome_iff_ne_none.2 full))

theorem shiftCloseBody_closes (job : s.bill.job ≠ .noJob) (free : s.bill.outBuffer = none) :
    shiftCloseBody f s = (closeShift s, some (Reply.values .ok [w16 s.bill.ticketNumber])) :=
  (if_neg job).trans (if_neg (by rw [free]; decide))

end

theorem cutLines_taken (cls : Nat) (s : State) (rest : List Frame) : cutLines cls (taken rest s) = cutLines cls s := rfl

theorem cutLast_taken (s : State) (rest : List Frame) : cutLast (taken rest s) = cutLast s := rfl

/-- Settles O41: `closeShift` puts the record of the cut ticket into the out-buffer, from where `admitted_ticket` lets it
enter; the other units it leaves alone. -/
theorem shiftCloseOpensNextTicket : Obligations.ShiftCloseOpensNextTicket := by
  intro s f rest settled asks none
  have echoed : echo f = [] := by simp [echo, none]
  have refused {c : Code} (ending : s.bill.job ≠ .ending)
      (body : shiftCloseBody f (taken rest s) = (taken rest s, some (Reply.echo c))) :
      exec .shiftClose s = .next (answered f rest c.num [] s) :=
    echoed ▸ congrArg Host.Outcome.next (admitted_takeRequest (body := shiftCloseBody) (kind := (· == 12)) (countFits := (· == 0))
      (whileEnding := false) asks rfl (by simp [none]) (.inl ending) body (SameWaits.refl s))
  refine ⟨fun job => refused (by rw [job]; decide) (shiftCloseBody_noJob (s := taken rest s) job),
    fun job full => refused (by rw [job]; decide) (shiftCloseBody_busy (s := taken rest s)
      (by rw [show (taken rest s).bill.job = s.bill.job from rfl, job]; decide) full), fun job free => ?_⟩
  have run := takeRequest_replied (kind := (· == 12)) (countFits := (· == 0)) (whileEnding := false) asks rfl
    (by simp [none]) (.inl (by rw [job]; decide)) (shiftCloseBody_closes (f := f) (s := taken rest s)
      (by rw [show (taken rest s).bill.job = s.bill.job from rfl, job]; decide) free)
  have units := closeShift_untouched (taken rest s)
  have bill := closeShift_bill (taken rest s)
  have cls := closeShift_class (taken rest s)
  have cut := shiftCut_cut (taken rest s)
  have shows := cut.ticket (shiftCut_byClose (taken rest s)) false
  obtain ⟨v, isV⟩ : ∃ v, v = closeShift (taken rest s) := ⟨_, rfl⟩
  obtain ⟨c, isC⟩ : ∃ c, c = shiftCut (taken rest s) := ⟨_, rfl⟩
  rw [← isV] at run units bill cls
  rw [← isC] at bill cls cut shows
  rw [cutLines_taken, cutLast_taken] at shows
  obtain ⟨records, serial, requests, -, -⟩ := units.queues
  obtain ⟨w, isW⟩ : ∃ w, w = replied f (Reply.values .ok [w16 s.bill.ticketNumber]) v := ⟨_, rfl⟩
  have answer : Answer w f rest 0 [BitVec.ofNat 16 s.bill.ticketNumber] := isW ▸ replied_answer requests
  have sameUnits : SameUnits v w := isW ▸ replied_sameUnits
  have run : exec .shiftClose s = .next (admitted s w) := by
    rw [isW]; exact congrArg (Host.Outcome.next ∘ admitted s) run
  have billW := sameUnits.bill.trans bill
  obtain ⟨closed, rod⟩ := ticketClosed_of_cut (s := s) (c := c) (w := w) (final := false) settled free
    (shows.congr rfl rfl rfl rfl rfl rfl) cut.1
    (congrArg BillState.outBuffer billW) (congrArg BillState.lines billW)
    ((congrArg IntervalState.currentClass sameUnits.interval).trans cls) (sameUnits.rod.trans units.rod)
    (by rw [isW]; exact records) (by rw [isW]; exact serial)
  have admits := admitted_admits s w
  have answer' : Answer (admitted s w) f rest 0 [BitVec.ofNat 16 s.bill.ticketNumber] := by
    rw [Answer, admits.line]; exact answer
  refine ⟨_, run, answer', ?_, ?_, ?_, ?_, ?_, ?_, ?_, closed, ?_, rod, ?_, ?_, ?_⟩
  · rw [admits.bill, billW]; exact job
  · rw [admits.bill, billW]; rfl
  · rw [admits.bill, billW]; rfl
  · rw [admits.bill, billW]; rfl
  · rw [admits.bill, billW]; rfl
  · rw [admits.bill, billW]
  · rw [admits.bill, billW]
  · exact admits.depth.trans (sameUnits.depth.trans units.depth)
  · exact admits.circ.trans (sameUnits.circ.trans units.circ)
  · exact admits.channels.trans (sameUnits.channels.trans units.channels)
  · exact admits.gov.trans (sameUnits.gov.trans units.gov)

end Sys2Proof.Machine

/-! # JOB_END (R151) -/

namespace Sys2Proof.Machine

/-! ## The checks, in their order -/

section
variable {s : State} {force : Nat}

theorem jobEndFault_noJob (job : s.bill.job = .noJob) : jobEndFault force s = some .noJob := if_pos job

theorem jobEndFault_value (job : s.bill.job ≠ .noJob) (large : 1 < force) : jobEndFault force s = some .badValue :=
  (if_neg job).trans (if_pos large)

theorem jobEndFault_busy (job : s.bill.job ≠ .noJob) (small : force ≤ 1) (full : s.bill.outBuffer ≠ none) :
    jobEndFault force s = some .busy :=
  (if_neg job).trans ((if_neg (by omega)).trans (if_pos (Option.isSome_iff_ne_none.2 full)))

theorem jobEndFault_string (job : s.bill.job ≠ .noJob) (zero : force = 0) (free : s.bill.outBuffer = none)
    (string : s.rod.string ≠ []) : jobEndFault force s = some .stringInHole :=
  (if_neg job).trans ((if_neg (by omega)).trans ((if_neg (by rw [free]; decide)).trans (if_pos ⟨string, zero⟩)))

theorem jobEndFault_passed (job : s.bill.job ≠ .noJob) (small : force ≤ 1) (free : s.bill.outBuffer = none)
    (string : s.rod.string = [] ∨ force = 1) : jobEndFault force s = none :=
  (if_neg job).trans ((if_neg (by omega)).trans ((if_neg (by rw [free]; decide)).trans
    (if_neg fun h => string.elim (fun k => h.1 k) fun k => by omega)))

theorem jobEndBody_refused {f : Frame} {c : Code} (fault : jobEndFault (f.val 0) s = some c) :
    jobEndBody f s = (s, some (Reply.echo c)) := by
  rw [jobEndBody, fault]

theorem jobEndBody_passed {f : Frame} (fault : jobEndFault (f.val 0) s = none) : jobEndBody f s = (endJob s, none) := by
  rw [jobEndBody, fault]

end

/-! ## The job that is ending -/

theorem setLag_untouched (s : State) (l : LagState) : Untouched s (s.setLag l) := ⟨⟨_, _, rfl⟩, rfl, rfl, rfl, rfl, rfl⟩

theorem flushCompletion_untouched (s : State) : Untouched s (flushCompletion s) := by
  unfold flushCompletion
  split
  · exact (setLag_untouched s _).trans (setBill_untouched _ _)
  · exact ⟨⟨_, _, rfl⟩, rfl, rfl, rfl, rfl, rfl⟩

theorem flushCompletion_interval (s : State) : (flushCompletion s).interval = s.interval := by
  unfold flushCompletion
  split <;> rfl

theorem flushCompletion_queue (s : State) : (flushCompletion s).lag.queue = s.lag.queue :=
  (flushCompletion_offers s).queue

/-- The completion of the flush is noted in the ending watch alone (R126). -/
theorem flushCompletion_bill (s : State) : ∃ w, (flushCompletion s).bill = { s.bill with ending := w } ∧
    (w = s.bill.ending ∨ w = s.bill.ending.map fun e => { e with lagDone := true }) := by
  unfold flushCompletion
  split
  · exact ⟨_, rfl, .inr rfl⟩
  · exact ⟨_, rfl, .inl rfl⟩

theorem force_not_waiting (time : Nat) (e : LagEntry) : (e.force time).stage ≠ .waiting := by
  unfold LagEntry.force
  split
  · exact nofun
  · next no =>
    intro waiting
    rw [LagEntry.isWaiting, waiting] at no
    exact no rfl

/-- The ending watch knows the ticket and the final hole depth (R151). -/
def EndingKnows (ticket hole : Nat) (w : Option EndingWatch) : Prop :=
  ∃ e, w = some e ∧ e.ticket = ticket ∧ e.finalHole = hole

theorem EndingKnows.later {ticket hole : Nat} {w w' : Option EndingWatch} (h : EndingKnows ticket hole w)
    (e : w' = w ∨ w' = w.map fun e => { e with lagDone := true }) : EndingKnows ticket hole w' := by
  obtain ⟨x, rfl, isTicket, isHole⟩ := h
  rcases e with rfl | rfl
  · exact ⟨x, rfl, isTicket, isHole⟩
  · exact ⟨_, rfl, isTicket, isHole⟩

section
variable (s : State)

/-- The ticket has been frozen and no ticket is open, before the lag unit flushes (R151). -/
def endingBegun : State := beginEnding s.depth.hole (applyDeferred (snapshot true (endingCut s)))

theorem endJob_eq : endJob s = jobEndFlush (endingBegun s) := rfl

theorem endingBegun_bill : (endingBegun s).bill = { (endingCut s).bill with
    outBuffer := some (ticketRecord true (endingCut s))
    lines := (endingCut s).bill.lines.map TicketLine.nextTicket
    deferred := false
    ticketOpen := false
    ending := some { ticket := (endingCut s).bill.ticketNumber, finalHole := s.depth.hole, lagDone := false } } := by
  obtain ⟨c, is⟩ : ∃ c, c = endingCut s := ⟨_, rfl⟩
  rw [endingBegun, ← is]
  simp only [beginEnding, State.setBill_bill, applyDeferred_bill, snapshot]

theorem endingCut_untouched : Untouched s (endingCut s) :=
  (setBill_untouched s { s.bill with job := .ending }).trans (endCut_byClose _).untouched

theorem endJob_untouched : Untouched s (endJob s) := by
  have begun : Untouched s (endingBegun s) :=
    (((endingCut_untouched s).trans (setBill_untouched _ _)).trans (applyDeferred_untouched _)).trans
      (setBill_untouched _ _)
  have flushed : Untouched (endingBegun s) (jobEndFlush (endingBegun s)) :=
    ((setLag_untouched _ _).trans (setLag_untouched _ _)).trans (flushCompletion_untouched _)
  exact begun.trans flushed

theorem endJob_interval : (endJob s).interval = (endingCut s).interval := by
  have flushed : (jobEndFlush (endingBegun s)).interval = (endingBegun s).interval := flushCompletion_interval _
  exact flushed.trans (applyDeferred_interval (snapshot true (endingCut s)))

/-- The bill after a JOB_END: the cut ticket is frozen, its lines are cleared, and the ending watch is set. -/
theorem endJob_bill : ∃ w, (endJob s).bill = { (endingCut s).bill with
    outBuffer := some (ticketRecord true (endingCut s))
    lines := (endingCut s).bill.lines.map TicketLine.nextTicket
    deferred := false
    ticketOpen := false
    ending := w } ∧ EndingKnows s.bill.ticketNumber s.depth.hole w := by
  have ticket : (endingCut s).bill.ticketNumber = s.bill.ticketNumber := by
    have cut : ByClose (s.setBill { s.bill with job := .ending }) (endingCut s) := endCut_byClose _
    rw [cut.bill]; rfl
  have begun := endingBegun_bill s
  obtain ⟨b, isB⟩ : ∃ b, b = endingBegun s := ⟨_, rfl⟩
  rw [endJob_eq]
  rw [← isB] at begun ⊢
  obtain ⟨w, is, later⟩ := flushCompletion_bill ((lagFlush b).setLag { (lagFlush b).lag with flushWatch := true })
  have watch : EndingKnows s.bill.ticketNumber s.depth.hole b.bill.ending := by
    rw [begun]; exact ⟨_, rfl, ticket, rfl⟩
  refine ⟨w, is.trans ?_, watch.later later⟩
  show { b.bill with ending := w } = _
  rw [begun]

theorem endJob_queue : ∀ e ∈ (endJob s).lag.queue, e.stage ≠ .waiting := by
  have queue : (endJob s).lag.queue = (endingBegun s).lag.queue.map (LagEntry.force (jobTime (endingBegun s))) :=
    flushCompletion_queue _
  intro e h
  rw [queue] at h
  obtain ⟨x, -, rfl⟩ := List.mem_map.1 h
  exact force_not_waiting _ x

end

/-! ## The request -/

section
variable {s : State} {f : Frame} {rest : List Frame}

/-- A request without an answer: the state it is carried out to. -/
theorem takeRequest_unanswered {kind countFits : Nat → Bool} {whileEnding : Bool}
    {body : Frame → State → State × Option Reply} {tag : BitVec 8} {v : State} (asks : Asks s tag f rest)
    (hk : kind tag.toNat = true) (hc : countFits f.values.length = true)
    (job : s.bill.job ≠ .ending ∨ whileEnding = true) (hb : body f (taken rest s) = (v, none)) :
    takeRequest kind countFits whileEnding body s = v := by
  have free := asks.decoderFree
  obtain ⟨head, -, -, rfl⟩ := asks
  have turn : ¬(s.bill.job = .ending ∧ whileEnding = false) := fun h =>
    job.elim (fun k => k h.1) fun k => by rw [h.2] at k; cases k
  have carried : body f (s.setLine { s.line with requests := rest }) = (v, none) := hb
  simp only [takeRequest, head, free, hk, hc, Bool.and_self, if_true, turn, if_false, carried, Bool.not_true,
    Bool.false_eq_true]

end

/-- Settles O39: the checks of `jobEndFault` in their order; `endJob` puts the record of the cut ticket into the out-buffer
and flushes the lag unit, and `admitted_ticket` lets the record enter. -/
theorem jobEndBeginsEnding : Obligations.JobEndBeginsEnding := by
  intro s f rest w settled asks one
  have echoed := echo_of_values one
  have force : f.val 0 = w.toNat := val_zero_of_values one
  have refused {c : Code} (ending : s.bill.job ≠ .ending) (fault : jobEndFault w.toNat (taken rest s) = some c) :
      exec .jobEnd s = .next (answered f rest c.num [w] s) :=
    echoed ▸ congrArg Host.Outcome.next (admitted_takeRequest (body := jobEndBody) (kind := (· == 11))
      (countFits := (· == 1)) (whileEnding := false) asks rfl (by simp [one]) (.inl ending)
      (jobEndBody_refused (by rw [force]; exact fault)) (SameWaits.refl s))
  refine ⟨fun job => refused (by rw [job]; decide) (jobEndFault_noJob job), fun job => ?_⟩
  have open' : (taken rest s).bill.job ≠ .noJob := by rw [show (taken rest s).bill.job = _ from job]; decide
  have notEnding : s.bill.job ≠ .ending := by rw [job]; decide
  refine ⟨fun large => refused notEnding (jobEndFault_value open' large),
    fun small full => refused notEnding (jobEndFault_busy open' small full),
    fun zero free string => refused notEnding (jobEndFault_string open' (by rw [zero]; rfl) free string),
    fun small free string => ?_⟩
  have fault : jobEndFault (f.val 0) (taken rest s) = none := by
    rw [force]
    exact jobEndFault_passed open' small free (string.imp id fun one => by rw [one]; rfl)
  have run := takeRequest_unanswered (kind := (· == 11)) (countFits := (· == 1)) (whileEnding := false) asks rfl
    (by simp [one]) (.inl notEnding) (jobEndBody_passed fault)
  have units := endJob_untouched (taken rest s)
  have interval := endJob_interval (taken rest s)
  have cleared : (endingCut (taken rest s)).interval.current = none := endCut_current _
  obtain ⟨watch, bill, knows⟩ := endJob_bill (taken rest s)
  have queue := endJob_queue (taken rest s)
  have ending : (endingCut (taken rest s)).bill.job = .ending := by
    have cut : ByClose ((taken rest s).setBill { (taken rest s).bill with job := .ending }) (endingCut (taken rest s)) :=
      endCut_byClose _
    rw [cut.bill]; rfl
  have cut : Cut ((taken rest s).setBill { (taken rest s).bill with job := .ending }) (endingCut (taken rest s)) :=
    endCut_cut _
  have shows := cut.ticket (endCut_byClose _) true
  obtain ⟨v, isV⟩ : ∃ v, v = endJob (taken rest s) := ⟨_, rfl⟩
  obtain ⟨c, isC⟩ : ∃ c, c = endingCut (taken rest s) := ⟨_, rfl⟩
  rw [← isV] at run units interval bill queue
  rw [← isC] at interval bill cleared cut shows ending
  have lines : cutLines c.interval.currentClass ((taken rest s).setBill { (taken rest s).bill with job := .ending }) =
      cutLines c.interval.currentClass s := rfl
  have last : cutLast ((taken rest s).setBill { (taken rest s).bill with job := .ending }) = cutLast s := rfl
  rw [Cut, lines, last] at cut
  rw [lines, last] at shows
  obtain ⟨records, serial, requests, response, completion⟩ := units.queues
  obtain ⟨closed, rod⟩ := ticketClosed_of_cut (s := s) (c := c) (w := v) (final := true) settled free
    (shows.congr rfl rfl rfl rfl rfl rfl) cut.1 (congrArg BillState.outBuffer bill) (congrArg BillState.lines bill)
    (congrArg IntervalState.currentClass interval) units.rod records serial
  have admits := admitted_admits s v
  obtain ⟨-, noResponse, noCompletion, -⟩ := asks
  refine ⟨_, congrArg (Host.Outcome.next ∘ admitted s) run, ?_, ?_, ?_, ?_, ?_, ?_, ?_, closed,
    fun e h => queue e (admits.queue.subset h), ?_, admits.depth.trans units.depth, rod, admits.circ.trans units.circ,
    admits.channels.trans units.channels, admits.gov.trans units.gov⟩
  · rw [admits.line]; exact requests
  · rw [admits.line]; exact response.trans noResponse
  · rw [admits.line]; exact completion.trans noCompletion
  · rw [admits.bill, bill]; exact ending
  · rw [admits.bill, bill]
  · rw [admits.bill, bill]
  · rw [admits.interval, interval, cleared]
  · have later := admits.ending
    rw [bill] at later
    exact knows.later later

end Sys2Proof.Machine

/-! # STRATA records that leave the lag unit, and FLUSH_LAG (R121, R122, R124) -/

namespace Sys2Proof.Machine

/-! ## When nothing but EVENT and STATUS records can enter -/

section
variable {s u : State} {p : Producer} {r : RecordBody}

/-- A ROD, TICKET or STRATA record is the first to enter and does not fit. -/
def Held (u : State) : Prop :=
  ∃ p r, p ≠ .event ∧ p ≠ .status ∧ firstOffer u = some (p, r) ∧ recordRoom u < r.frames.length

theorem held_of_first (event : p ≠ .event) (status : p ≠ .status) (first : (waiting u).head? = some p)
    (own : offeredRecord u p = some r) (large : recordRoom u < r.frames.length) : Held u :=
  ⟨p, r, event, status, firstOffer_of_head? first own, large⟩

theorem Held.closed (held : Held u) : Closed u := by
  obtain ⟨p, r, -, -, first, large⟩ := held
  intro q x offer
  rw [first] at offer
  cases offer
  exact .inr large

/-- What is pending stays pending through an admission that only judges. -/
theorem admission_held_keepsPending (event : p ≠ .event) (status : p ≠ .status) (n : Nat) : ∀ judged u,
    firstOffer u = some (p, r) → recordRoom u < r.frames.length → KeepsPending u (admission n judged u) := by
  induction n with
  | zero => exact fun _ _ _ _ _ h => h
  | succ n ih =>
    intro judged u offer large
    have closed := admissible_of_firstOffer offer large
    cases next : unjudged judged u with
    | none => rw [admission_done closed next]; exact fun _ h => h
    | some q =>
      have unit := occurNat_eventOnly srcQueueFull q.code u
      have room : recordRoom (occurNat srcQueueFull q.code u) = recordRoom u := by
        rw [recordRoom, unit.records, recordRoom]
      have back : SameOffers (occurNat srcQueueFull q.code u) u :=
        ⟨congrArg RodState.out unit.rod.symm, congrArg BillState.outBuffer unit.bill.symm,
          congrArg LagState.hold unit.lag.symm, congrArg LagState.queue unit.lag.symm⟩
      rw [admission_judge closed next]
      have kept : KeepsPending u (occurNat srcQueueFull q.code u) := raise_keepsPending _ u
      exact kept.trans (ih _ _ (firstOffer_congr back offer event status) (by rw [room]; exact large))

theorem Held.keepsPending (held : Held u) (s : State) : KeepsPending u (admitted s u) := by
  obtain ⟨p, r, event, status, first, large⟩ := held
  unfold admitted
  split
  · exact fun _ h => h
  · exact admission_held_keepsPending event status _ _ u first large

theorem closed_of_none (out : u.rod.out = []) (ticket : u.bill.outBuffer = none) (hold : u.lag.hold = [])
    (queue : ∀ e ∈ u.lag.queue.head?, e.stage = .waiting) : Closed u := by
  have rod := not_waiting_rod.2 out
  have noTicket := not_waiting_ticket.2 ticket
  have strata := not_waiting_strata.2 ⟨hold, queue⟩
  intro q x offer
  rw [firstOffer_eq, waiting, admissionOrder] at offer
  simp only [List.filter_cons, rod, noTicket, strata, Bool.false_eq_true, if_false, List.filter_nil] at offer
  refine .inl ?_
  split at offer
  · simp only [List.head?_cons, Option.bind_some] at offer
    cases e : offeredRecord u .event with
    | none => rw [e] at offer; cases offer
    | some y => rw [e] at offer; cases offer; exact .inl rfl
  · split at offer
    · simp only [List.head?_cons, Option.bind_some] at offer
      cases e : offeredRecord u .status with
      | none => rw [e] at offer; cases offer
      | some y => rw [e] at offer; cases offer; exact .inr rfl
    · cases offer

/-- Where only EVENT and STATUS records can enter, the end of a step lets no other enter. -/
theorem Closed.admitted (closed : Closed u) (s : State) : SameButRecords u (Machine.admitted s u) := by
  unfold Machine.admitted
  split
  · exact SameButRecords.refl u
  · exact admission_sameRecords _ _ u closed

/-- In a settled state the first record that waits does not fit. -/
theorem Settled.first_large (settled : Settled s) (first : (waiting s).head? = some p) (own : offeredRecord s p = some r) :
    recordRoom s < r.frames.length := (settled_iff s).1 settled p first r own

/-- With no ROD or TICKET record waiting a STRATA record is the first to enter (R23). -/
theorem waiting_head?_strata (out : s.rod.out = []) (ticket : s.bill.outBuffer = none)
    (own : offeredRecord s .strata = some r) : (waiting s).head? = some .strata := by
  refine waiting_head? (before := [.rod, .ticket]) rfl (fun q hq => ?_) (isWaiting_of_offered own)
  rcases List.mem_cons.1 hq with rfl | hq
  · exact not_waiting_rod.2 out
  · obtain rfl := List.mem_singleton.1 hq
    exact not_waiting_ticket.2 ticket

theorem waiting_head?_rod {more : List RecordBody} (out : s.rod.out = r :: more) : (waiting s).head? = some .rod :=
  waiting_head? (before := []) rfl (fun _ h => absurd h List.not_mem_nil)
    (isWaiting_of_offered (r := r) (congrArg List.head? out))

/-- Ahead of an unchanged ROD or TICKET record, or with a STRATA record of the same size first, what could not enter
before cannot enter now. -/
theorem Settled.held_of_same (settled : Settled s) (out : u.rod.out = s.rod.out)
    (ticket : u.bill.outBuffer = s.bill.outBuffer) (records : u.line.records = s.line.records)
    (strata : s.rod.out = [] → s.bill.outBuffer = none → ∃ r r', offeredRecord s .strata = some r ∧
      offeredRecord u .strata = some r' ∧ r.frames.length = r'.frames.length) : Held u := by
  have room : recordRoom u = recordRoom s := by rw [recordRoom, records, recordRoom]
  cases o : s.rod.out with
  | cons r more =>
    exact held_of_first (p := .rod) nofun nofun (waiting_head?_rod (out.trans o)) (congrArg List.head? (out.trans o))
      (room ▸ settled.first_large (waiting_head?_rod o) (congrArg List.head? o))
  | nil =>
    cases b : s.bill.outBuffer with
    | some r =>
      exact held_of_first (p := .ticket) nofun nofun (waiting_head?_ticket (out.trans o) (ticket.trans b)) (ticket.trans b)
        (room ▸ settled.first_large (waiting_head?_ticket o b) b)
    | none =>
      obtain ⟨r, r', before, now, size⟩ := strata o b
      exact held_of_first (p := .strata) nofun nofun (waiting_head?_strata (out.trans o) (ticket.trans b) now) now
        (by rw [room, ← size]; exact settled.first_large (waiting_head?_strata o b before) before)

end

/-! ## Entries that leave the lag queue (R121, R122) -/

/-- The record that an entry leaves as. -/
def entryRecord (e : LagEntry) : RecordBody := strataRecord e.strata (lagPartOf e.stage)

theorem framesOf_mod (type n : Nat) (frames : List (List Word)) : framesOf type (n % 256) frames = framesOf type n frames := by
  have word (i : Nat) : BitVec.ofNat 16 (n % 256 * 256 + i) = BitVec.ofNat 16 (n * 256 + i) := by
    apply BitVec.eq_of_toNat_eq
    rw [BitVec.toNat_ofNat, BitVec.toNat_ofNat]
    omega
  simp only [framesOf, word]

/-- The frames of entries that enter one after the other under the serials that follow. -/
def entryFrames (serial : Nat) (l : List LagEntry) : List Frame :=
  l.zipIdx.flatMap fun x => framesOf 2 ((serial + x.2) % 256) (entryRecord x.1).frames

theorem entryFrames_length (serial : Nat) (l : List LagEntry) : (entryFrames serial l).length = 3 * l.length := by
  have three (x : LagEntry × Nat) : (framesOf 2 ((serial + x.2) % 256) (entryRecord x.1).frames).length = 3 := by
    rw [framesOf_length]; rfl
  rw [entryFrames, List.length_flatMap]
  simp [three, Nat.mul_comm]

theorem entryFrames_cons (serial : Nat) (e : LagEntry) (l : List LagEntry) :
    entryFrames serial (e :: l) = framesOf 2 serial (entryRecord e).frames ++ entryFrames ((serial + 1) % 256) l := by
  have shift (n : Nat) : (serial + (n + 1)) % 256 = ((serial + 1) % 256 + n) % 256 := by omega
  have later : (l.zipIdx 1).flatMap (fun x => framesOf 2 ((serial + x.2) % 256) (entryRecord x.1).frames) =
      entryFrames ((serial + 1) % 256) l := by
    rw [List.zipIdx_succ, List.flatMap_map]
    exact congrArg (l.zipIdx.flatMap ·) (funext fun x => by rw [shift x.2])
  rw [entryFrames, List.zipIdx_cons, List.flatMap_cons, later, framesOf_mod]
  rfl

/-- Entries leave the head of the lag queue into the record queue. -/
def leave : List LagEntry → State → State
  | [], s => s
  | e :: l, s => leave l (admitOne .strata (entryRecord e) s)

/-- What leaving entries change: the lag queue, the record queue, and, while the lag unit watches, the ending watch. -/
structure Left (l rest : List LagEntry) (s t : State) : Prop where
  records : t.line.records = s.line.records ++ entryFrames s.line.serial l
  line : ∃ r n h, t.line = { s.line with records := r, serial := n, highWater := h }
  queue : t.lag.queue = rest
  hold : t.lag.hold = s.lag.hold
  unwatched : s.lag.flushWatch = false → t.bill = s.bill ∧ t.lag.flushWatch = false
  ticket : t.bill.outBuffer = s.bill.outBuffer
  depth : t.depth = s.depth
  rod : t.rod = s.rod
  circ : t.circ = s.circ
  interval : t.interval = s.interval
  gov : t.gov = s.gov
  channels : t.channels = s.channels
  tables : t.tables = s.tables
  event : t.event = s.event

section
variable {rest : List LagEntry}

theorem Left.nil (s : State) : Left [] s.lag.queue s (leave [] s) :=
  ⟨by simp [leave, entryFrames], ⟨_, _, _, rfl⟩, rfl, rfl, fun h => ⟨rfl, h⟩, rfl, rfl, rfl, rfl, rfl, rfl, rfl, rfl, rfl⟩

theorem leave_left (l : List LagEntry) : ∀ s : State, s.lag.hold = [] → s.lag.queue = l ++ rest →
    Left l rest s (leave l s) := by
  induction l with
  | nil =>
    intro s _ queue
    obtain rfl : s.lag.queue = rest := queue
    exact .nil s
  | cons e l ih =>
    intro s hold queue
    have one := admitOne_queue (entryRecord e) hold queue
    obtain ⟨u, isU⟩ : ∃ u, u = admitOne .strata (entryRecord e) s := ⟨_, rfl⟩
    have later := ih u (by rw [isU, one]; exact hold) (by rw [isU, one]; rfl)
    rw [leave, ← isU]
    rw [← isU] at one
    have unwatched (h : s.lag.flushWatch = false) : u.bill = s.bill ∧ u.lag.flushWatch = false := by
      rw [one]
      simp [h]
    obtain ⟨r, n, w, line⟩ := later.line
    exact {
      records := by rw [later.records, one, entryFrames_cons, ← List.append_assoc]; rfl
      line := ⟨r, n, w, by rw [line, one]; rfl⟩
      queue := later.queue
      hold := by rw [later.hold, one]
      unwatched := fun h => by
        obtain ⟨bill, watch⟩ := unwatched h
        obtain ⟨bill', watch'⟩ := later.unwatched watch
        exact ⟨bill'.trans bill, watch'⟩
      ticket := by rw [later.ticket, one]
      depth := by rw [later.depth, one]
      rod := by rw [later.rod, one]
      circ := by rw [later.circ, one]
      interval := by rw [later.interval, one]
      gov := by rw [later.gov, one]
      channels := by rw [later.channels, one]
      tables := by rw [later.tables, one]
      event := by rw [later.event, one] }

theorem entryRecord_length (e : LagEntry) : (entryRecord e).frames.length = 3 := rfl

theorem offered_of_queue {s : State} {e : LagEntry} (hold : s.lag.hold = []) (queue : s.lag.queue = e :: rest)
    (leaves : e.stage ≠ .waiting) : offeredRecord s .strata = some (entryRecord e) := by
  simp only [offeredRecord, hold, queue]
  exact if_neg (mt (LagEntry.isWaiting_iff e).1 leaves)

/-- An admission lets the entries at the head of the lag queue enter as far as there is room, where no ROD or TICKET
record waits. -/
theorem admission_leaves (n : Nat) (l : List LagEntry) : ∀ judged (s : State), s.rod.out = [] → s.bill.outBuffer = none →
    s.lag.hold = [] → s.lag.queue = l ++ rest → (∀ e ∈ l, e.stage ≠ .waiting) →
    3 * l.length ≤ 64 - s.line.records.length →
    ∃ judged', admission (l.length + n) judged s = admission n judged' (leave l s) := by
  induction l with
  | nil => exact fun judged s _ _ _ _ _ _ => ⟨judged, by rw [List.length_nil, Nat.zero_add]; rfl⟩
  | cons e l ih =>
    intro judged s out ticket hold queue leaves room
    rw [List.length_cons] at room
    have own := offered_of_queue hold queue (leaves e List.mem_cons_self)
    have can : admissible s = some (.strata, entryRecord e) :=
      admissible_of_head? (waiting_head?_strata out ticket own) own (by rw [entryRecord_length, recordRoom]; omega)
    have one := admitOne_queue (entryRecord e) hold queue
    obtain ⟨u, isU⟩ : ∃ u, u = admitOne .strata (entryRecord e) s := ⟨_, rfl⟩
    rw [← isU] at one
    have length : u.line.records.length = s.line.records.length + 3 := by
      rw [one]
      show (s.line.records ++ framesOf _ _ _).length = _
      rw [List.length_append, framesOf_length, entryRecord_length]
    obtain ⟨judged', run⟩ := ih (judged.erase .strata) u (by rw [one]; exact out) (by rw [one]; exact ticket)
      (by rw [one]; exact hold) (by rw [one]; rfl) (fun x h => leaves x (List.mem_cons_of_mem e h)) (by rw [length]; omega)
    refine ⟨judged', ?_⟩
    rw [List.length_cons, show l.length + 1 + n = l.length + n + 1 by omega, admission_admit can, ← isU, run, leave, ← isU]

/-- A step in which entries have begun to leave the lag queue, at its end: they have entered, and after them EVENT and
STATUS records only. -/
theorem admitted_leaves {s w : State} (l : List LagEntry) (before : isWaiting s .strata = false) (out : w.rod.out = [])
    (ticket : w.bill.outBuffer = none) (hold : w.lag.hold = []) (queue : w.lag.queue = l ++ rest)
    (leaves : ∀ e ∈ l, e.stage ≠ .waiting) (room : 3 * l.length ≤ 64 - w.line.records.length)
    (closed : Closed (leave l w)) : SameButRecords (leave l w) (admitted s w) := by
  cases l with
  | nil => exact closed.admitted s
  | cons e l =>
    have own := offered_of_queue hold queue (leaves e List.mem_cons_self)
    obtain ⟨judged', run⟩ := admission_leaves (admissionBound - (e :: l).length) (e :: l) (waiting s) w out ticket hold
      queue leaves room
    have bound : (e :: l).length + (admissionBound - (e :: l).length) = admissionBound := by
      rw [admissionBound]; omega
    rw [bound] at run
    rw [admitted_of_begun before (isWaiting_of_offered own), admitRecords, run]
    exact admission_sameRecords _ _ _ closed

end

end Sys2Proof.Machine

/-! # FLUSH_LAG (R124) -/

namespace Sys2Proof.Machine

/-- The entries after a flush at a job time, as stated (R124). -/
def forcedEntries (time : Nat) (l : List LagEntry) : List LagEntry :=
  l.map fun e => if e.stage = .waiting then { e with stage := .forced time } else e

theorem force_eq (time : Nat) (e : LagEntry) :
    e.force time = if e.stage = .waiting then { e with stage := .forced time } else e := by
  rw [LagEntry.force]
  simp only [LagEntry.isWaiting_iff]

theorem map_force (time : Nat) (l : List LagEntry) : l.map (LagEntry.force time) = forcedEntries time l :=
  List.map_congr_left fun e _ => force_eq time e

theorem forcedEntries_not_waiting {time : Nat} {l : List LagEntry} : ∀ e ∈ forcedEntries time l, e.stage ≠ .waiting := by
  intro e h
  rw [← map_force] at h
  obtain ⟨x, -, rfl⟩ := List.mem_map.1 h
  exact force_not_waiting time x

theorem waitingCount_eq (s : State) : waitingCount s = s.lag.queue.countP fun e => e.stage = .waiting :=
  List.countP_congr fun e _ => by rw [LagEntry.isWaiting_iff, decide_eq_true_iff]

/-- Entries may leave: no ROD or TICKET record waits, the hold is empty, and no entry has been offered before. -/
def Leaves (s : State) : Prop :=
  s.rod.out = [] ∧ s.bill.outBuffer = none ∧ s.lag.hold = [] ∧ ∀ e ∈ s.lag.queue.head?, e.stage = .waiting

section
variable {s w : State}

/-- A flush with nothing offered by the lag unit before, at the end of its step: as many entries as there is room for have
entered. -/
theorem admitted_flushed (can : Leaves s) (out : w.rod.out = s.rod.out) (ticket : w.bill.outBuffer = s.bill.outBuffer)
    (hold : w.lag.hold = s.lag.hold) (records : w.line.records = s.line.records)
    (leaves : ∀ e ∈ w.lag.queue, e.stage ≠ .waiting) :
    let k := min w.lag.queue.length ((64 - s.line.records.length) / 3)
    SameButRecords (leave (w.lag.queue.take k) w) (admitted s w) := by
  obtain ⟨noRod, noTicket, noHold, head⟩ := can
  intro k
  have isK : k = min w.lag.queue.length ((64 - s.line.records.length) / 3) := rfl
  have queue : w.lag.queue = w.lag.queue.take k ++ w.lag.queue.drop k := (List.take_append_drop k _).symm
  have length : (w.lag.queue.take k).length = k := by rw [List.length_take]; omega
  have left := leave_left (w.lag.queue.take k) w (hold.trans noHold) queue
  have noHold' := left.hold.trans (hold.trans noHold)
  have noRod' : (leave (w.lag.queue.take k) w).rod.out = [] := (congrArg RodState.out left.rod).trans (out.trans noRod)
  have noTicket' := left.ticket.trans (ticket.trans noTicket)
  have closed : Closed (leave (w.lag.queue.take k) w) := by
    cases more : w.lag.queue.drop k with
    | nil => exact closed_of_none noRod' noTicket' noHold' fun e h => by rw [left.queue, more] at h; cases h
    | cons e rest =>
      have short : k < w.lag.queue.length := by
        by_contra all
        rw [List.drop_eq_nil_of_le (by omega)] at more
        cases more
      have own := offered_of_queue noHold' (left.queue.trans more)
        (leaves e (List.mem_of_mem_drop (by rw [more]; exact List.mem_cons_self)))
      refine (held_of_first (p := .strata) nofun nofun (waiting_head?_strata noRod' noTicket' own) own ?_).closed
      rw [recordRoom, left.records, List.length_append, entryFrames_length, length, records, entryRecord_length]
      omega
  exact admitted_leaves _ (not_waiting_strata.2 ⟨noHold, head⟩) (out.trans noRod) (ticket.trans noTicket)
    (hold.trans noHold) queue (fun e h => leaves e (List.mem_of_mem_take h)) (by rw [length, records]; omega) closed

/-- A flush behind a ROD or TICKET record, or with a record of the lag unit offered before: nothing enters but EVENT and
STATUS records. -/
theorem admitted_flushed_behind (settled : Settled s) (no : ¬Leaves s) (out : w.rod.out = s.rod.out)
    (ticket : w.bill.outBuffer = s.bill.outBuffer) (hold : w.lag.hold = s.lag.hold)
    (queue : w.lag.queue = forcedEntries s.depth.jobClock s.lag.queue) (records : w.line.records = s.line.records) :
    SameButRecords w (admitted s w) := by
  refine (settled.held_of_same out ticket records fun noRod noTicket => ?_).closed.admitted s
  cases h : s.lag.hold with
  | cons r more =>
    have offered (u : State) (is : u.lag.hold = r :: more) :
        offeredRecord u .strata = some (strataRecord r unlaggedPart) := by simp only [offeredRecord, is]
    exact ⟨_, _, offered s h, offered w (hold.trans h), rfl⟩
  | nil =>
    cases q : s.lag.queue with
    | nil => exact absurd ⟨noRod, noTicket, h, fun e k => by rw [q] at k; cases k⟩ no
    | cons e rest =>
      have leaves : e.stage ≠ .waiting := fun waits =>
        no ⟨noRod, noTicket, h, fun x k => by rw [q] at k; cases k; exact waits⟩
      have now : w.lag.queue = e :: forcedEntries s.depth.jobClock rest := by
        rw [queue, q, forcedEntries, List.map_cons, if_neg leaves]
        rfl
      exact ⟨_, _, offered_of_queue h q leaves, offered_of_queue (hold.trans h) now leaves, rfl⟩

end

/-- Settles O47: the flush forces the entries of the lag queue, and as many as there is room for leave it. -/
theorem flushLagForcesEntries : Obligations.FlushLagForcesEntries := by
  intro s f rest settled asks none job forced n k
  have run := takeRequest_replied (kind := (· == 18)) (countFits := (· == 0)) (whileEnding := false) asks rfl
    (by simp [none]) (.inl job) (rfl : flushLagBody f (taken rest s) = (lagFlush (taken rest s), _))
  have count : waitingCount (taken rest s) = n := waitingCount_eq _
  rw [count] at run
  obtain ⟨w, isW⟩ : ∃ w, w = replied f (Reply.values .ok [w16 n]) (lagFlush (taken rest s)) := ⟨_, rfl⟩
  have queue : w.lag.queue = forced := by rw [isW]; exact map_force _ _
  have hold : w.lag.hold = s.lag.hold := by rw [isW]; rfl
  have records : w.line.records = s.line.records := by rw [isW]; rfl
  have serial : w.line.serial = s.line.serial := by rw [isW]; rfl
  have answer : Answer w f rest 0 [BitVec.ofNat 16 n] := by rw [isW]; exact replied_answer rfl
  have units : w.bill = s.bill ∧ w.lag.flushWatch = s.lag.flushWatch ∧ w.depth = s.depth ∧ w.rod = s.rod ∧
      w.circ = s.circ ∧ w.interval = s.interval ∧ w.gov = s.gov ∧ w.channels = s.channels ∧ w.tables = s.tables := by
    rw [isW]; exact ⟨rfl, rfl, rfl, rfl, rfl, rfl, rfl, rfl, rfl⟩
  obtain ⟨bill, watch, depth, rod, circ, interval, gov, channels, tables⟩ := units
  have step : exec .flushLag s = .next (admitted s w) := by
    rw [isW]; exact congrArg (Host.Outcome.next ∘ admitted s) run
  have served : Left (forced.take k) (forced.drop k) w (leave (forced.take k) w) ∧
      SameButRecords (leave (forced.take k) w) (admitted s w) := by
    by_cases can : Leaves s
    · have isK : k = min forced.length ((64 - s.line.records.length) / 3) := if_pos can
      have entered := admitted_flushed can (congrArg RodState.out rod) (congrArg BillState.outBuffer bill) hold records
        (by rw [queue]; exact forcedEntries_not_waiting)
      rw [queue, ← isK] at entered
      have parts : w.lag.queue = forced.take k ++ forced.drop k := queue.trans (List.take_append_drop k forced).symm
      exact ⟨leave_left _ w (hold.trans can.2.2.1) parts, entered⟩
    · have isK : k = 0 := if_neg can
      have left := Left.nil w
      rw [queue] at left
      rw [isK, List.take_zero, List.drop_zero]
      exact ⟨left, admitted_flushed_behind settled can (congrArg RodState.out rod) (congrArg BillState.outBuffer bill)
        hold queue records⟩
  obtain ⟨left, same⟩ := served
  obtain ⟨hi, number, mark, line⟩ := left.line
  have units := same.sameUnits
  have answerLeft : Answer (leave (forced.take k) w) f rest 0 [BitVec.ofNat 16 n] := by
    rw [Answer, line]; exact answer
  have grown : s.line.records ++ entryFrames s.line.serial (forced.take k) <+: (admitted s w).line.records := by
    have more := same.2.1
    rw [left.records, records, serial] at more
    exact more
  refine ⟨_, step, same.answer answerLeft, ?_, ?_, ?_, (List.prefix_append _ _).trans grown, fun unwatched => ?_,
    units.depth.trans (left.depth.trans depth), units.rod.trans (left.rod.trans rod),
    units.circ.trans (left.circ.trans circ), units.interval.trans (left.interval.trans interval),
    units.gov.trans (left.gov.trans gov), units.channels.trans (left.channels.trans channels),
    units.tables.trans (left.tables.trans tables)⟩
  · rw [units.lag, left.queue]
  · rw [units.lag, left.hold, hold]
  · obtain ⟨more, is⟩ := grown
    rw [newFrames, ← is, List.append_assoc, List.drop_left]
    exact List.prefix_append _ more
  · obtain ⟨bill', watch'⟩ := left.unwatched (watch.trans unwatched)
    rw [units.bill, units.lag]
    exact ⟨bill'.trans bill, watch'⟩

end Sys2Proof.Machine

/-! # What a close leaves of the interval unit and of the lag unit (R117 to R119, R141 to R145) -/

namespace Sys2Proof.Machine

/-! ## The cause for which an interval is not classed (R144) -/

/-- The cause of R144 is the first of those that hold. -/
theorem unclassedCause_eq (o : OpenInterval) (length : Nat) :
    unclassedCause o length = ((unclassedCauses o length).idxOf? true).map (· + 1) := by
  unfold unclassedCause unclassedCauses
  cases o.minLength with
  | none => rfl
  | some m =>
    cases o.area with
    | none => rfl
    | some a =>
      cases o.bounds with
      | none => rfl
      | some b =>
        by_cases short : length < m
        · simp [short, List.idxOf?, List.findIdx?_cons]
        · by_cases brief : o.sumT < 1000
          · simp [short, brief, List.idxOf?, List.findIdx?_cons]
          · simp [short, brief, List.idxOf?, List.findIdx?_cons]

section
variable {o : OpenInterval} {bottom : Nat}

theorem unclassedCause_of_index {i length : Nat} (h : (unclassedCauses o length).idxOf? true = some i) :
    unclassedCause o length = some (i + 1) := by
  rw [unclassedCause_eq, h]
  rfl

theorem unclassedCause_of_none {length : Nat} (h : ∀ b ∈ unclassedCauses o length, b = false) :
    unclassedCause o length = none := by
  have none : (unclassedCauses o length).idxOf? true = none :=
    List.idxOf?_eq_none_iff.2 fun m => absurd (h true m) (by decide)
  rw [unclassedCause_eq, none]
  rfl

/-- An interval that is not classed: no class, and no energy (R144, R146). -/
theorem buildStrata_unclassed {cause : Nat} (t : Trigger) (time : Nat)
    (is : unclassedCause o (bottom - o.top) = some cause) :
    (buildStrata o t bottom time).cls = none ∧ (buildStrata o t bottom time).energy = 0 := by
  have cls : closingClass o (bottom - o.top) = none := by rw [closingClass, is]
  exact ⟨cls, by simp [buildStrata, cls]⟩

/-- A classed interval: its specific energy, and the number of boundaries at or below it (R142, R143). -/
theorem buildStrata_classed {area : Nat} {bounds : List Nat} (t : Trigger) (time : Nat) (hasArea : o.area = some area)
    (hasBounds : o.bounds = some bounds) (is : unclassedCause o (bottom - o.top) = none) :
    (buildStrata o t bottom time).energy = specificEnergy o area (bottom - o.top) ∧
      (buildStrata o t bottom time).cls =
        some (bounds.countP fun b => decide (b ≤ (buildStrata o t bottom time).energy)) := by
  have energy : min 65535 (rawEnergy o (bottom - o.top)) = specificEnergy o area (bottom - o.top) := by
    simp only [rawEnergy, hasArea, Option.getD_some, specificEnergy]
  have cls : closingClass o (bottom - o.top) =
      some (bounds.countP fun b => decide (b ≤ specificEnergy o area (bottom - o.top))) := by
    rw [closingClass, is]
    dsimp only
    rw [energy, hasBounds, classOf, Option.getD_some]
  have isEnergy : (buildStrata o t bottom time).energy = specificEnergy o area (bottom - o.top) := by
    simp [buildStrata, cls, energy]
  exact ⟨isEnergy, by rw [isEnergy]; exact cls⟩

end

/-! ## The interval unit after a close (R141) -/

section
variable (o : OpenInterval) (t : Trigger) (bottom : Nat) (s : State)

/-- The open interval has been classed and counted. -/
def classed : State := countClosed (classifyClose o (buildStrata o t bottom (jobTime s)) s)

theorem classifyClose_eventOnly (r : Strata) :
    EventOnly (s.setInterval { s.interval with currentClass := r.cls.getD s.interval.currentClass })
      (classifyClose o r s) := by
  unfold classifyClose
  split
  · next k is => rw [is]; exact EventOnly.refl _
  · next is =>
    rw [is]
    exact occurNat_eventOnly _ _ s

/-- The interval unit after a close, before the next interval opens. -/
def closedInterval (cls : Option Nat) (i : IntervalState) : IntervalState :=
  { current := none, counter := nextNumber i.counter, currentClass := cls.getD i.currentClass }

theorem classed_eventOnly : EventOnly
    (s.setInterval (closedInterval (buildStrata o t bottom (jobTime s)).cls s.interval)) (classed o t bottom s) := by
  have unit := classifyClose_eventOnly o s (buildStrata o t bottom (jobTime s))
  have counted := unit.setInterval { (classifyClose o (buildStrata o t bottom (jobTime s)) s).interval with
    current := none, counter := nextNumber (classifyClose o (buildStrata o t bottom (jobTime s)) s).interval.counter }
  rw [unit.interval] at counted
  have is : classed o t bottom s = (classifyClose o (buildStrata o t bottom (jobTime s)) s).setInterval
      { (classifyClose o (buildStrata o t bottom (jobTime s)) s).interval with
        current := none
        counter := nextNumber (classifyClose o (buildStrata o t bottom (jobTime s)) s).interval.counter } := rfl
  rw [is, unit.interval]
  exact counted

theorem handedOn_eq : handedOn o t bottom s = lagTake (buildStrata o t bottom (jobTime s)) (classed o t bottom s) := rfl

theorem closed_interval :
    (closed o t bottom s).interval = closedInterval (buildStrata o t bottom (jobTime s)).cls s.interval := by
  rw [closed_eq, billInterval_interval, handedOn_eq, (lagTake_besideLag _ _).interval]
  exact (classed_eventOnly o t bottom s).interval

/-- Only the billing unit differs. -/
def BesideBill (u v : State) : Prop := v = u.setBill v.bill

theorem BesideBill.trans {u v w : State} (h : BesideBill u v) (k : BesideBill v w) : BesideBill u w := by
  unfold BesideBill at *
  rw [k, h]
  rfl

theorem accrue_besideBill (key q rate : Nat) (u : State) : BesideBill u (accrue key q rate u) := by
  unfold accrue
  split <;> rfl

theorem billInterval_besideBill (n : BillingNotice) (u : State) : BesideBill u (billInterval n u) := by
  have noted (v : State) (last : Option Nat) : BesideBill v (v.setBill { v.bill with lastInterval := last }) := rfl
  unfold billInterval
  refine iteInduction (fun _ => ?_) fun _ => rfl
  refine BesideBill.trans (iteInduction (fun _ => ?_) fun _ => accrue_besideBill _ _ _ _) (noted _ _)
  exact (accrue_besideBill _ _ _ _).trans (accrue_besideBill _ _ _ _)

theorem billInterval_lag (n : BillingNotice) (u : State) :
    (billInterval n u).lag = u.lag ∧ (billInterval n u).event = u.event := by
  have beside := billInterval_besideBill n u
  unfold BesideBill at beside
  rw [beside]
  exact ⟨rfl, rfl⟩

theorem closed_lag : (closed o t bottom s).lag = (handedOn o t bottom s).lag ∧
    (closed o t bottom s).event = (handedOn o t bottom s).event := by
  rw [closed_eq]
  exact billInterval_lag _ _

end

/-! ## The lag unit's three ways (R117) -/

section
variable {c s : State} (r : Strata)

/-- A record released unlagged: it joins the hold, or is lost with RECORD_QUEUE_FULL (R117, R119). -/
def Unlagged (r : Strata) (s h : State) : Prop :=
  (s.lag.hold.length < 4 → h.lag = { s.lag with hold := s.lag.hold ++ [r] }) ∧
  (4 ≤ s.lag.hold.length → h.lag = s.lag ∧ h.event.accounts[srcQueueFull].pending = true)

theorem releaseUnlagged_unlagged : Unlagged r c (releaseUnlagged r c) := by
  unfold releaseUnlagged
  refine ⟨fun room => by rw [if_pos room]; rfl, fun full => ?_⟩
  rw [if_neg (by omega)]
  refine ⟨(occurNat_eventOnly _ _ c).lag, ?_⟩
  have account : (occurNat srcQueueFull 258 c).event.accounts[srcQueueFull] =
      c.event.accounts[srcQueueFull].take _ (jobTime c) := (raise_account { src := srcQueueFull, detail := BitVec.ofNat 32 258, applied := true } c srcQueueFull
    (by unfold Apart; decide)).trans (if_pos rfl)
  rw [account]
  rfl

theorem lagTake_unlagged (none : c.tables[tProfile].active = none) : Unlagged r c (lagTake r c) := by
  unfold lagTake
  rw [activeCopy, none]
  exact releaseUnlagged_unlagged r

theorem lagTake_overflow {pages : List Page} (active : c.tables[tProfile].active = some pages)
    (full : 64 ≤ c.lag.queue.length) : Unlagged r c (lagTake r c) ∧
      ∃ u, EventOnly c u ∧ (∀ q, Apart q → q ≠ srcProfileEnd → u.event.accounts[q] = c.event.accounts[q]) ∧
        lagTake r c = releaseUnlagged r (occurNat srcLagOverflow r.number u) := by
  have profile := profileEnd_eventOnly c pages r.bottom
  have accounts (q : Source) (apart : Apart q) (other : q ≠ srcProfileEnd) :
      (profileEnd pages r.bottom c).event.accounts[q] = c.event.accounts[q] := by
    unfold profileEnd
    split
    · exact (raise_account _ c q apart).trans (if_neg other)
    · rfl
  have taken : lagTake r c = releaseUnlagged r (occurNat srcLagOverflow r.number (profileEnd pages r.bottom c)) := by
    unfold lagTake
    rw [activeCopy, active]
    exact if_neg (by rw [profile.lag]; omega)
  have unlagged := releaseUnlagged_unlagged (c := occurNat srcLagOverflow r.number (profileEnd pages r.bottom c)) r
  have lag : (occurNat srcLagOverflow r.number (profileEnd pages r.bottom c)).lag = c.lag :=
    (occurNat_eventOnly _ _ _).lag.trans profile.lag
  rw [Unlagged, lag] at unlagged
  exact ⟨taken ▸ unlagged, _, profile, accounts, taken⟩

/-- The entry that a record joins the lag queue as (R118). -/
def joining (pages : List Page) (r : Strata) (s : State) : LagEntry :=
  { strata := r
    arrival := arrivalVolume pages r.bottom s
    stage := if arrivalVolume pages r.bottom s ≤ s.circ.pumped then dueStage s else .waiting }

theorem lagTake_joins {pages : List Page} (active : c.tables[tProfile].active = some pages)
    (room : c.lag.queue.length < 64) :
    (lagTake r c).lag = { c.lag with queue := c.lag.queue ++ [joining pages r (profileEnd pages r.bottom c)] } := by
  have profile := profileEnd_eventOnly c pages r.bottom
  have taken : lagTake r c = lagJoin pages r (profileEnd pages r.bottom c) := by
    unfold lagTake
    rw [activeCopy, active]
    exact if_pos (by rw [profile.lag]; exact room)
  rw [taken, lagJoin, State.setLag_lag, profile.lag]
  rfl

/-- What joins depends on the circulation, the channels, the clock, the lag queue and PIT_LOSS alone. -/
theorem joining_congr {u : State} (pages : List Page) (circ : u.circ = s.circ) (lag : u.lag = s.lag)
    (depth : u.depth = s.depth) (channels : u.channels = s.channels) (loss : cond u srcPitLoss = cond s srcPitLoss) :
    joining pages r u = joining pages r s := by
  have held (ch : Ch) : Machine.held u ch = Machine.held s ch := by rw [Machine.held, channels, Machine.held]
  have arrival : arrivalVolume pages r.bottom u = arrivalVolume pages r.bottom s := by
    rw [arrivalVolume, lag, circ, arrivalVolume]
  simp only [joining, arrival, dueStage, jobTime, held, circ, depth, loss]

theorem profileEnd_cond (pages : List Page) (bottom : Nat) (u : State) (q : Source) :
    cond (profileEnd pages bottom u) q = cond u q := by
  unfold profileEnd
  split
  · exact raise_cond _ u q
  · rfl

theorem classifyClose_cond (o : OpenInterval) (u : State) (q : Source) : cond (classifyClose o r u) q = cond u q := by
  unfold classifyClose
  split
  · rfl
  · exact raise_cond _ u q

/-! ## The accounts through a close -/

theorem releaseUnlagged_account {q : Source} (apart : Apart q) (notFull : q ≠ srcQueueFull) (u : State) :
    (releaseUnlagged r u).event.accounts[q] = u.event.accounts[q] := by
  unfold releaseUnlagged
  split
  · rfl
  · exact (raise_account _ u q apart).trans (if_neg notFull)

theorem lagTake_account {q : Source} (apart : Apart q) (notFull : q ≠ srcQueueFull) (notOverflow : q ≠ srcLagOverflow)
    (notEnd : q ≠ srcProfileEnd) (u : State) : (lagTake r u).event.accounts[q] = u.event.accounts[q] := by
  have profile (pages : List Page) : (profileEnd pages r.bottom u).event.accounts[q] = u.event.accounts[q] := by
    unfold profileEnd
    split
    · exact (raise_account _ u q apart).trans (if_neg notEnd)
    · rfl
  unfold lagTake
  split
  · exact releaseUnlagged_account r apart notFull u
  · dsimp only
    split
    · exact profile _
    · exact (releaseUnlagged_account r apart notFull _).trans
        (((raise_account _ _ q apart).trans (if_neg notOverflow)).trans (profile _))

end

end Sys2Proof.Machine

/-! # The record of a closed interval at the end of its step (R23, R117 to R119) -/

namespace Sys2Proof.Machine

/-- A STRATA record that is offered now enters in this step: none was offered before, no ROD or TICKET record waits, and
its three frames have room. -/
def Enters (s : State) : Prop :=
  s.rod.out = [] ∧ s.bill.outBuffer = none ∧ s.lag.hold = [] ∧ (∀ e ∈ s.lag.queue.head?, e.stage = .waiting) ∧
    s.line.records.length + 3 ≤ 64

/-- The record has entered with a lag part, and the lag unit keeps what it held before. -/
def Entered (r : Strata) (part : LagPart) (s t : State) : Prop :=
  t.lag.hold = s.lag.hold ∧ t.lag.queue = s.lag.queue ∧
    framesOf 2 s.line.serial (strataRecord r part).frames <+: newFrames s t

section
variable {s w : State} {r : Strata}

/-- A STRATA record that begins to be offered, with nothing ahead of it, enters at the end of the step. -/
theorem admitted_strata_enters {part : LagPart} (enters : Enters s) (out : w.rod.out = s.rod.out)
    (ticket : w.bill.outBuffer = s.bill.outBuffer) (records : w.line.records = s.line.records)
    (serial : w.line.serial = s.line.serial) (own : offeredRecord w .strata = some (strataRecord r part))
    (line : (admitOne .strata (strataRecord r part) w).line = lineAfterEntry 2 (strataRecord r part).frames w.line)
    (hold : (admitOne .strata (strataRecord r part) w).lag.hold = s.lag.hold)
    (queue : (admitOne .strata (strataRecord r part) w).lag.queue = s.lag.queue)
    (rod : (admitOne .strata (strataRecord r part) w).rod = w.rod)
    (buffer : (admitOne .strata (strataRecord r part) w).bill.outBuffer = w.bill.outBuffer) :
    Entered r part s (admitted s w) := by
  obtain ⟨noRod, noTicket, noHold, head, room⟩ := enters
  have can : admissible w = some (.strata, strataRecord r part) :=
    admissible_of_head? (waiting_head?_strata (out.trans noRod) (ticket.trans noTicket) own) own
      (by rw [recordRoom, records]; show 3 ≤ _; omega)
  have run : admitted s w =
      admission (2 * 64 + 4) ((waiting s).erase .strata) (admitOne .strata (strataRecord r part) w) := by
    rw [admitted_of_begun (not_waiting_strata.2 ⟨noHold, head⟩) (isWaiting_of_offered own), admitRecords, admissionBound]
    exact admission_admit can
  have closed : Closed (admitOne .strata (strataRecord r part) w) :=
    closed_of_none (by rw [rod, out, noRod]) (buffer.trans (ticket.trans noTicket)) (hold.trans noHold)
      (by rw [queue]; exact head)
  have same : SameButRecords (admitOne .strata (strataRecord r part) w) (admitted s w) :=
    run ▸ admission_sameRecords _ _ _ closed
  refine ⟨by rw [same.sameUnits.lag, hold], by rw [same.sameUnits.lag, queue], ?_⟩
  obtain ⟨more, is⟩ := same.2.1
  have frames : (admitOne .strata (strataRecord r part) w).line.records =
      s.line.records ++ framesOf 2 s.line.serial (strataRecord r part).frames := by
    rw [line, ← records, ← serial]; rfl
  rw [newFrames, ← is, frames, List.append_assoc, List.drop_left]
  exact List.prefix_append _ more

/-- Where no STRATA record could be offered before for want of room alone, none can now. -/
theorem held_of_no_room {body : RecordBody} (three : body.frames.length = 3) (noRod : w.rod.out = [])
    (noTicket : w.bill.outBuffer = none) (records : w.line.records = s.line.records)
    (own : offeredRecord w .strata = some body) (full : 64 < s.line.records.length + 3) : Held w :=
  held_of_first (p := .strata) nofun nofun (waiting_head?_strata noRod noTicket own) own
    (by rw [recordRoom, records, three]; omega)

theorem offered_of_hold {more : List Strata} (hold : w.lag.hold = r :: more) :
    offeredRecord w .strata = some (strataRecord r unlaggedPart) := by
  simp only [offeredRecord, hold]

/-- A record in the hold that may not enter holds back all but EVENT and STATUS records. -/
theorem held_of_released (settled : Settled s) (no : ¬Enters s) (out : w.rod.out = s.rod.out)
    (ticket : w.bill.outBuffer = s.bill.outBuffer) (records : w.line.records = s.line.records)
    (hold : w.lag.hold = s.lag.hold ++ [r]) : Held w := by
  by_cases full : 64 < s.line.records.length + 3 ∧ s.rod.out = [] ∧ s.bill.outBuffer = none
  · cases h : s.lag.hold with
    | cons x more =>
      exact held_of_no_room rfl (out.trans full.2.1) (ticket.trans full.2.2) records
        (offered_of_hold (hold.trans (by rw [h]; rfl))) full.1
    | nil =>
      exact held_of_no_room rfl (out.trans full.2.1) (ticket.trans full.2.2) records
        (offered_of_hold (hold.trans (by rw [h]; rfl))) full.1
  · refine settled.held_of_same out ticket records fun noRod noTicket => ?_
    cases h : s.lag.hold with
    | cons x more => exact ⟨_, _, offered_of_hold h, offered_of_hold (hold.trans (by rw [h]; rfl)), rfl⟩
    | nil =>
      cases q : s.lag.queue with
      | nil =>
        refine absurd ⟨noRod, noTicket, h, fun e k => (by rw [q] at k; cases k), ?_⟩ no
        by_contra more
        exact full ⟨by omega, noRod, noTicket⟩
      | cons e rest =>
        have leaves : e.stage ≠ .waiting := fun waits => no ⟨noRod, noTicket, h, fun x k => (by
          rw [q] at k; cases k; exact waits), by
            by_contra more
            exact full ⟨by omega, noRod, noTicket⟩⟩
        have now : w.lag.hold = r :: [] := hold.trans (by rw [h]; rfl)
        exact ⟨_, _, offered_of_queue h q leaves, offered_of_hold now, rfl⟩

/-- A record released unlagged, at the end of its step (R117, R119). -/
theorem unlagged_admitted (settled : Settled s) (out : w.rod.out = s.rod.out)
    (ticket : w.bill.outBuffer = s.bill.outBuffer) (records : w.line.records = s.line.records)
    (serial : w.line.serial = s.line.serial) (released : Unlagged r s w) :
    (s.lag.hold.length < 4 → (Enters s → Entered r unlaggedPart s (admitted s w)) ∧
      (¬Enters s → (admitted s w).lag = { s.lag with hold := s.lag.hold ++ [r] })) ∧
    (4 ≤ s.lag.hold.length → (admitted s w).lag = s.lag ∧
      (admitted s w).event.accounts[srcQueueFull].pending = true) := by
  refine ⟨fun room => ⟨fun enters => ?_, fun no => ?_⟩, fun full => ?_⟩
  · have lag := released.1 room
    have hold : w.lag.hold = [r] := by rw [lag, enters.2.2.1]; rfl
    have one := admitOne_hold (strataRecord r unlaggedPart) hold
    refine admitted_strata_enters enters out ticket records serial (offered_of_hold hold) ?_ ?_ ?_ ?_ ?_
    · rw [one]; rfl
    · rw [one]; exact enters.2.2.1.symm
    · rw [one, lag]
    · rw [one]
    · rw [one]
  · have lag := released.1 room
    have held := held_of_released settled no out ticket records (congrArg LagState.hold lag)
    rw [(held.closed.admitted s).sameUnits.lag, lag]
  · obtain ⟨lag, pending⟩ := released.2 full
    have held : Held w := settled.held_of_same out ticket records fun _ _ => by
      cases h : s.lag.hold with
      | nil => rw [h] at full; cases full
      | cons x more =>
        exact ⟨_, _, offered_of_hold h, offered_of_hold ((congrArg LagState.hold lag).trans h), rfl⟩
    exact ⟨(held.closed.admitted s).sameUnits.lag.trans lag, held.keepsPending s _ pending⟩

/-- A record that has joined the lag queue, at the end of its step (R118). -/
theorem joined_admitted {e : LagEntry} (settled : Settled s) (out : w.rod.out = s.rod.out)
    (ticket : w.bill.outBuffer = s.bill.outBuffer) (records : w.line.records = s.line.records)
    (serial : w.line.serial = s.line.serial) (lag : w.lag = { s.lag with queue := s.lag.queue ++ [e] }) :
    (Enters s → s.lag.queue = [] → e.stage ≠ .waiting → Entered e.strata (lagPartOf e.stage) s (admitted s w)) ∧
    (¬(Enters s ∧ s.lag.queue = [] ∧ e.stage ≠ .waiting) → (admitted s w).lag = w.lag) := by
  have hold : w.lag.hold = s.lag.hold := by rw [lag]
  refine ⟨fun enters empty leaves => ?_, fun no => ?_⟩
  · have noHold := hold.trans enters.2.2.1
    have queue : w.lag.queue = [e] := by rw [lag, empty]; rfl
    have one := admitOne_queue (strataRecord e.strata (lagPartOf e.stage)) noHold queue
    refine admitted_strata_enters enters out ticket records serial (offered_of_queue noHold queue leaves) ?_ ?_ ?_ ?_ ?_
    · rw [one]; rfl
    · rw [one]; exact hold
    · rw [one]; exact empty.symm
    · rw [one]
    · rw [one]
  · suffices closed : Closed w from (closed.admitted s).sameUnits.lag
    by_cases ahead : s.rod.out = [] ∧ s.bill.outBuffer = none ∧ s.lag.hold = []
    · obtain ⟨noRod, noTicket, noHold⟩ := ahead
      cases q : s.lag.queue with
      | cons x rest =>
        have queue : w.lag.queue = x :: (rest ++ [e]) := by rw [lag, q]; rfl
        by_cases waits : x.stage = .waiting
        · exact closed_of_none (out.trans noRod) (ticket.trans noTicket) (hold.trans noHold) fun y h => by
            rw [queue] at h; cases h; exact waits
        · exact (settled.held_of_same out ticket records fun _ _ =>
            ⟨_, _, offered_of_queue noHold q waits, offered_of_queue (hold.trans noHold) queue waits, rfl⟩).closed
      | nil =>
        have queue : w.lag.queue = [e] := by rw [lag, q]; rfl
        by_cases waits : e.stage = .waiting
        · exact closed_of_none (out.trans noRod) (ticket.trans noTicket) (hold.trans noHold) fun y h => by
            rw [queue] at h; cases h; exact waits
        · refine (held_of_no_room rfl (out.trans noRod) (ticket.trans noTicket) records
            (offered_of_queue (hold.trans noHold) queue waits) ?_).closed
          by_contra room
          exact no ⟨⟨noRod, noTicket, noHold, fun y h => (by rw [q] at h; cases h), by omega⟩, q, waits⟩
    · refine (settled.held_of_same out ticket records fun noRod noTicket => ?_).closed
      cases h : s.lag.hold with
      | nil => exact absurd ⟨noRod, noTicket, h⟩ ahead
      | cons x more => exact ⟨_, _, offered_of_hold h, offered_of_hold (hold.trans h), rfl⟩

end

end Sys2Proof.Machine

/-! # MARK (R138) -/

namespace Sys2Proof.Machine

section
variable {s : State} {f : Frame} {rest : List Frame} {o : OpenInterval}

/-! ## The request -/

theorem markBody_noJob (job : s.bill.job = .noJob) : markBody f s = (s, some (Reply.echo .noJob)) := if_pos job

theorem markBody_badValue (job : s.bill.job ≠ .noJob) (large : 255 < f.val 0) :
    markBody f s = (s, some (Reply.echo .badValue)) := (if_neg job).trans (if_pos large)

theorem markBody_short (job : s.bill.job ≠ .noJob) (small : f.val 0 ≤ 255) (short : openLength s = 0) :
    markBody f s = (writeNote (f.val 0) s, some (Reply.values .ok (w32 0))) :=
  (if_neg job).trans ((if_neg (by omega)).trans (if_neg (by omega)))

theorem markBody_closes (job : s.bill.job ≠ .noJob) (small : f.val 0 ≤ 255) (long : 0 < openLength s) :
    markBody f s = (closeInterval .mark s.depth.hole (writeNote (f.val 0) s),
      some (Reply.values .ok (w32 (openNumber s)))) :=
  (if_neg job).trans ((if_neg (by omega)).trans (if_pos long))

theorem writeNote_eq (n : Nat) (current : s.interval.current = some o) :
    writeNote n s = s.setInterval { s.interval with current := some { o with note := n } } := by
  rw [writeNote, current]
  rfl

theorem openLength_eq (current : s.interval.current = some o) : openLength s = s.depth.hole - o.top := by
  rw [openLength, current]

/-! ## What a close by MARK leaves -/

/-- The units and queues that a close by MARK leaves as they are. -/
structure MarkKeeps (s w : State) : Prop where
  depth : w.depth = s.depth
  rod : w.rod = s.rod
  circ : w.circ = s.circ
  channels : w.channels = s.channels
  gov : w.gov = s.gov
  tables : w.tables = s.tables
  ticket : w.bill.outBuffer = s.bill.outBuffer
  records : w.line.records = s.line.records
  serial : w.line.serial = s.line.serial
  requests : w.line.requests = s.line.requests

/-- A close, and the interval that opens after it. -/
def closedByMark (o : OpenInterval) (s : State) : State :=
  openInterval (some (.mark, o.boundary)) s.depth.hole (closed o .mark s.depth.hole s)

theorem closeInterval_mark (current : s.interval.current = some o) :
    closeInterval .mark s.depth.hole s = closedByMark o s := by
  rw [closeInterval_some s current, if_neg (by decide)]
  rfl

theorem closedByMark_keeps (o : OpenInterval) (s : State) : MarkKeeps s (closedByMark o s) := by
  have by' := closed_byClose s o .mark s.depth.hole
  obtain ⟨c, is⟩ : ∃ c, c = closed o .mark s.depth.hole s := ⟨_, rfl⟩
  rw [closedByMark]
  rw [← is] at by' ⊢
  have line := by'.line
  exact ⟨by'.depth, by'.rod, by'.circ, by'.channels, by'.gov, by'.tables, by'.outBuffer, by
    show c.line.records = _
    rw [line], by
    show c.line.serial = _
    rw [line], by
    show c.line.requests = _
    rw [line]⟩

/-- The record that a close by MARK hands on. -/
def markStrata (o : OpenInterval) (s : State) : Strata := buildStrata o .mark s.depth.hole s.depth.jobClock

theorem closedByMark_handed (o : OpenInterval) (s : State) :
    (closedByMark o s).lag = (lagTake (markStrata o s) (classed o .mark s.depth.hole s)).lag ∧
      (closedByMark o s).event = (lagTake (markStrata o s) (classed o .mark s.depth.hole s)).event :=
  closed_lag o .mark s.depth.hole s

/-- The interval that opens after a close by MARK, with the counter and the class that the close leaves (R131, R141). -/
theorem closedByMark_interval (o : OpenInterval) (s : State) :
    (closedByMark o s).interval.counter = nextNumber s.interval.counter ∧
    (closedByMark o s).interval.currentClass = (markStrata o s).cls.getD s.interval.currentClass ∧
    ∃ n, (closedByMark o s).interval.current = some n ∧ n.number = nextNumber s.interval.counter ∧
      n.top = s.depth.hole ∧ n.openTime = s.depth.jobClock ∧ n.sumT = 0 ∧ n.note = 0 := by
  have interval := closed_interval o .mark s.depth.hole s
  have depth := (closed_byClose s o .mark s.depth.hole).depth
  obtain ⟨c, is⟩ : ∃ c, c = closed o .mark s.depth.hole s := ⟨_, rfl⟩
  rw [closedByMark]
  rw [← is] at interval depth ⊢
  refine ⟨congrArg IntervalState.counter interval, congrArg IntervalState.currentClass interval, _, rfl,
    congrArg IntervalState.counter interval, rfl, congrArg DepthState.jobClock depth, rfl, rfl⟩

/-! ### The class (R142 to R145) -/

theorem classed_account {q : Source} (apart : Apart q) (other : q ≠ srcUnclassed) (o : OpenInterval) (s : State) :
    (classed o .mark s.depth.hole s).event.accounts[q] = s.event.accounts[q] := by
  show (classifyClose o _ s).event.accounts[q] = _
  unfold classifyClose
  split
  · rfl
  · exact (raise_account _ s q apart).trans (if_neg other)

theorem classed_cond (o : OpenInterval) (s : State) (q : Source) :
    cond (classed o .mark s.depth.hole s) q = cond s q := classifyClose_cond _ o s q

/-- A close that is not classed reports its cause (R144). -/
theorem closedByMark_unclassed {cause : Nat} (is : unclassedCause o (s.depth.hole - o.top) = some cause) :
    Occurred srcUnclassed (BitVec.ofNat 32 cause) true s (closedByMark o s) := by
  obtain ⟨cls, -⟩ := buildStrata_unclassed .mark s.depth.jobClock is
  have occurs : classifyClose o (markStrata o s) s = occurNat srcUnclassed cause s := by
    have top : (markStrata o s).bottom - (markStrata o s).top = s.depth.hole - o.top := rfl
    rw [classifyClose, show (markStrata o s).cls = none from cls, top, is]
    rfl
  have occurred := occurred_occurNat (s := s) (u := s) (src := srcUnclassed) cause (by decide) ⟨_, rfl⟩ rfl
  rw [← occurs] at occurred
  have records : (classifyClose o (markStrata o s) s).line.records = s.line.records := by
    rw [occurs, (occurNat_eventOnly _ _ s).records]
  have keeps := closedByMark_keeps o s
  refine occurred.keep ?_ (by rw [records]) (by rw [records, keeps.records])
  rw [(closedByMark_handed o s).2]
  exact lagTake_account _ (by unfold Apart; decide) (by decide) (by decide) (by decide) _

/-! ### The lag unit's three ways (R117) -/

theorem classed_lag (o : OpenInterval) (s : State) : (classed o .mark s.depth.hole s).lag = s.lag ∧
    (classed o .mark s.depth.hole s).tables = s.tables :=
  have unit := classed_eventOnly o .mark s.depth.hole s
  ⟨unit.lag, unit.tables⟩

theorem Unlagged.handed {r : Strata} {c h w : State} (u : Unlagged r c h) (lag : c.lag = s.lag) (lag' : w.lag = h.lag)
    (event : w.event = h.event) : Unlagged r s w := by
  rw [Unlagged, lag] at u
  rw [Unlagged, lag', event]
  exact u

theorem closedByMark_unlagged (none : s.tables[tProfile].active = none) :
    Unlagged (markStrata o s) s (closedByMark o s) := by
  obtain ⟨lag, tables⟩ := classed_lag o s
  obtain ⟨handedLag, event⟩ := closedByMark_handed o s
  exact (lagTake_unlagged (c := classed o .mark s.depth.hole s) _ (by rw [tables]; exact none)).handed lag handedLag event

theorem closedByMark_overflow {pages : List Page} (active : s.tables[tProfile].active = some pages)
    (full : 64 ≤ s.lag.queue.length) : Unlagged (markStrata o s) s (closedByMark o s) ∧
      Occurred srcLagOverflow (BitVec.ofNat 32 o.number) true s (closedByMark o s) := by
  obtain ⟨lag, tables⟩ := classed_lag o s
  obtain ⟨handedLag, event⟩ := closedByMark_handed o s
  obtain ⟨unlagged, u, unit, accounts, taken⟩ := lagTake_overflow (c := classed o .mark s.depth.hole s) (markStrata o s)
    (by rw [tables]; exact active) (by rw [lag]; exact full)
  refine ⟨unlagged.handed lag handedLag event, ?_⟩
  have apart : Apart srcLagOverflow := by unfold Apart; decide
  have account : u.event.accounts[srcLagOverflow] = s.event.accounts[srcLagOverflow] :=
    (accounts _ apart (by decide)).trans (classed_account apart (by decide) o s)
  have clock : u.depth.jobClock = s.depth.jobClock := by
    rw [unit.depth, (classed_eventOnly o .mark s.depth.hole s).depth]; rfl
  have occurred := occurred_occurNat (s := s) (u := u) (src := srcLagOverflow) o.number (by decide) ⟨_, account⟩ clock
  have records : (occurNat srcLagOverflow o.number u).line.records = s.line.records := by
    rw [(occurNat_eventOnly _ _ u).records, unit.records, (classed_eventOnly o .mark s.depth.hole s).records]; rfl
  refine occurred.keep ?_ (by rw [records]) (by rw [records, (closedByMark_keeps o s).records])
  rw [event, taken]
  exact releaseUnlagged_account _ apart (by decide) _

theorem closedByMark_joins {pages : List Page} (active : s.tables[tProfile].active = some pages)
    (room : s.lag.queue.length < 64) :
    (closedByMark o s).lag = { s.lag with queue := s.lag.queue ++ [joining pages (markStrata o s) s] } := by
  obtain ⟨lag, tables⟩ := classed_lag o s
  have unit := classed_eventOnly o .mark s.depth.hole s
  have profile := profileEnd_eventOnly (classed o .mark s.depth.hole s) pages (markStrata o s).bottom
  have joins := lagTake_joins (c := classed o .mark s.depth.hole s) (markStrata o s) (by rw [tables]; exact active)
    (by rw [lag]; exact room)
  have entry : joining pages (markStrata o s)
      (profileEnd pages (markStrata o s).bottom (classed o .mark s.depth.hole s)) = joining pages (markStrata o s) s :=
    joining_congr _ pages (profile.circ.trans unit.circ) (profile.lag.trans unit.lag) (profile.depth.trans unit.depth)
      (profile.channels.trans unit.channels) ((profileEnd_cond pages _ _ _).trans (classed_cond o s _))
  rw [(closedByMark_handed o s).1, joins, entry, lag]

end

end Sys2Proof.Machine

/-! # A MARK closes an interval (O42) -/

namespace Sys2Proof.Machine

section
variable {s : State} {f : Frame} {rest : List Frame} {o : OpenInterval}

/-- The state in which a MARK closes the open interval. -/
def marked (n : Nat) (o : OpenInterval) (s : State) : State :=
  s.setInterval { s.interval with current := some { o with note := n } }

/-- What is stated of the record that a MARK hands on, but for its class and where it goes. -/
theorem markStrata_fields (n : Nat) (o : OpenInterval) (s : State) :
    let r := markStrata { o with note := n } (marked n o s)
    r.number = o.number ∧ r.top = o.top ∧ r.bottom = s.depth.hole ∧ r.trigger = .mark ∧ r.note = n ∧
      r.openTime = o.openTime ∧ r.closeTime = s.depth.jobClock ∧ r.loss = o.loss :=
  ⟨rfl, rfl, rfl, rfl, rfl, rfl, rfl, rfl⟩

theorem exec_mark_closes (asks : Asks s 13 f rest) (one : f.values.length = 1) (job : s.bill.job = .opened)
    (small : f.val 0 ≤ 255) (current : s.interval.current = some o) (long : o.top < s.depth.hole) :
    exec .mark s = .next (admitted s (replied f (Reply.values .ok (w32 o.number))
      (closedByMark { o with note := f.val 0 } (marked (f.val 0) o (taken rest s))))) := by
  have length : openLength (taken rest s) = s.depth.hole - o.top := openLength_eq (s := taken rest s) current
  have number : openNumber (taken rest s) = o.number := by
    show (s.interval.current.map (·.number)).getD 0 = _
    rw [current]; rfl
  have body := markBody_closes (f := f) (s := taken rest s)
    (by rw [show (taken rest s).bill.job = _ from job]; decide) small (by omega)
  rw [writeNote_eq (s := taken rest s) (f.val 0) current, number] at body
  have closes := closeInterval_mark (s := marked (f.val 0) o (taken rest s)) (o := { o with note := f.val 0 }) rfl
  have run := takeRequest_replied (kind := (· == 13)) (countFits := (· == 1)) (whileEnding := false) asks rfl
    (by simp [one]) (.inl (by rw [job]; decide)) (body.trans (Prod.ext closes rfl))
  exact congrArg (Host.Outcome.next ∘ admitted s) run

/-- The class and the energy of what a MARK closes, and the class in force afterwards (R142 to R145). -/
theorem marked_class (n : Nat) (o : OpenInterval) (s : State) :
    let r := markStrata { o with note := n } (marked n o s)
    let cls := (closedByMark { o with note := n } (marked n o s)).interval.currentClass
    (∀ area bounds, o.area = some area → o.bounds = some bounds →
      (∀ b ∈ unclassedCauses o (s.depth.hole - o.top), b = false) →
      r.energy = specificEnergy o area (s.depth.hole - o.top) ∧
        r.cls = some (bounds.countP fun b => decide (b ≤ r.energy)) ∧ r.cls = some cls) ∧
    (∀ i, (unclassedCauses o (s.depth.hole - o.top)).idxOf? true = some i →
      r.energy = 0 ∧ r.cls = none ∧ cls = s.interval.currentClass ∧
        Occurred srcUnclassed (BitVec.ofNat 32 (i + 1)) true s (closedByMark { o with note := n } (marked n o s))) := by
  obtain ⟨-, current, -⟩ := closedByMark_interval { o with note := n } (marked n o s)
  refine ⟨fun area bounds hasArea hasBounds classed => ?_, fun i first => ?_⟩
  · have classedStrata := buildStrata_classed (o := { o with note := n }) (bottom := s.depth.hole) .mark
      s.depth.jobClock hasArea hasBounds (unclassedCause_of_none (o := { o with note := n }) classed)
    obtain ⟨energy, cls⟩ := classedStrata
    refine ⟨energy, cls, ?_⟩
    have is : (markStrata { o with note := n } (marked n o s)).cls = some _ := cls
    rw [current, is]
    rfl
  · have cause := unclassedCause_of_index (o := { o with note := n }) first
    obtain ⟨cls, energy⟩ := buildStrata_unclassed (o := { o with note := n }) (bottom := s.depth.hole) .mark
      s.depth.jobClock cause
    have is : (markStrata { o with note := n } (marked n o s)).cls = none := cls
    refine ⟨energy, is, ?_, closedByMark_unclassed (s := marked n o s) cause⟩
    rw [current, is]
    rfl

end

/-- Settles O42: the note is written and the interval closed by `closedByMark`; its record goes one of the lag unit's three
ways, and `unlagged_admitted` and `joined_admitted` say where it is at the end of the step. -/
theorem markClosesInterval : Obligations.MarkClosesInterval := by
  intro s f rest w settled asks one
  have echoed := echo_of_values one
  have note : f.val 0 = w.toNat := val_zero_of_values one
  have refused {c : Code} (ending : s.bill.job ≠ .ending)
      (body : markBody f (taken rest s) = (taken rest s, some (Reply.echo c))) :
      exec .mark s = .next (answered f rest c.num [w] s) :=
    echoed ▸ congrArg Host.Outcome.next (admitted_takeRequest (body := markBody) (kind := (· == 13))
      (countFits := (· == 1)) (whileEnding := false) asks rfl (by simp [one]) (.inl ending) body (SameWaits.refl s))
  have notEnding (job : s.bill.job = .opened) : s.bill.job ≠ .ending := by rw [job]; decide
  have isOpen (job : s.bill.job = .opened) : (taken rest s).bill.job ≠ .noJob := by
    rw [show (taken rest s).bill.job = _ from job]; decide
  refine ⟨fun job => refused (by rw [job]; decide) (markBody_noJob (s := taken rest s) job),
    fun job large => refused (notEnding job) (markBody_badValue (isOpen job) (by rw [note]; exact large)),
    fun job small o current => ⟨fun short => ?_, fun long => ?_⟩⟩
  · have length : openLength (taken rest s) = s.depth.hole - o.top := openLength_eq (s := taken rest s) current
    have body := markBody_short (f := f) (isOpen job) (by rw [note]; exact small) (by omega)
    rw [writeNote_eq (s := taken rest s) (f.val 0) current, note] at body
    exact congrArg Host.Outcome.next (admitted_takeRequest (body := markBody) (kind := (· == 13))
      (countFits := (· == 1)) (whileEnding := false) (t := marked w.toNat o s) asks rfl (by simp [one])
      (.inl (notEnding job)) body ⟨rfl, rfl, rfl, rfl, rfl⟩)
  · have run := exec_mark_closes asks (by simp [one]) job (by rw [note]; exact small) current long
    rw [note] at run
    have keeps : MarkKeeps (marked w.toNat o (taken rest s))
        (closedByMark { o with note := w.toNat } (marked w.toNat o (taken rest s))) := closedByMark_keeps _ _
    have interval := closedByMark_interval { o with note := w.toNat } (marked w.toNat o (taken rest s))
    have class' := marked_class w.toNat o (taken rest s)
    have unlagged (none : s.tables[tProfile].active = none) :=
      closedByMark_unlagged (o := { o with note := w.toNat }) (s := marked w.toNat o (taken rest s)) none
    have overflow {pages : List Page} (active : s.tables[tProfile].active = some pages)
        (full : 64 ≤ s.lag.queue.length) :=
      closedByMark_overflow (o := { o with note := w.toNat }) (s := marked w.toNat o (taken rest s)) active full
    have joins {pages : List Page} (active : s.tables[tProfile].active = some pages) (room : s.lag.queue.length < 64) :=
      closedByMark_joins (o := { o with note := w.toNat }) (s := marked w.toNat o (taken rest s)) active room
    have fields := markStrata_fields w.toNat o (taken rest s)
    obtain ⟨r, isR⟩ : ∃ r, r = markStrata { o with note := w.toNat } (marked w.toNat o (taken rest s)) := ⟨_, rfl⟩
    obtain ⟨v, isV⟩ : ∃ v, v = closedByMark { o with note := w.toNat } (marked w.toNat o (taken rest s)) := ⟨_, rfl⟩
    rw [← isV] at run keeps interval class' overflow joins unlagged
    rw [← isR] at interval class' overflow joins unlagged fields
    obtain ⟨counter, -, opened⟩ := interval
    obtain ⟨classed, unclassed⟩ := class'
    obtain ⟨x, isX⟩ : ∃ x, x = replied f (Reply.values .ok (w32 o.number)) v := ⟨_, rfl⟩
    rw [← isX] at run
    have units : SameUnits v x := isX ▸ replied_sameUnits
    have event : x.event = v.event := by rw [isX]; rfl
    have records : x.line.records = s.line.records := by rw [isX]; exact keeps.records
    have serial : x.line.serial = s.line.serial := by rw [isX]; exact keeps.serial
    have rod : x.rod = s.rod := units.rod.trans keeps.rod
    have ticket : x.bill.outBuffer = s.bill.outBuffer := (congrArg BillState.outBuffer units.bill).trans keeps.ticket
    have answer : Answer x f rest 0 (w32 o.number) := by rw [isX]; exact replied_answer keeps.requests
    have admits := admitted_admits s x
    have out := admitted_rodOut (t := x) settled (congrArg RodState.out rod) records
    have occurs {src : Source} {d : BitVec 32} (apart : src ≠ srcPumpClamp) (notFull : src ≠ srcQueueFull)
        (h : Occurred src d true (taken rest s) v) : Occurred src d true s (admitted s x) := by
      have base : Occurred src d true s v := h
      have recordsV : s.line.records <+: v.line.records := by rw [keeps.records]; exact List.prefix_refl _
      exact (base.keep (by rw [event]) recordsV (by rw [records, keeps.records]; exact List.prefix_refl _)).admitted
        apart notFull (by rw [records]) s
    have intervalT : (admitted s x).interval = v.interval := admits.interval.trans units.interval
    obtain ⟨isNumber, isTop, isBottom, isTrigger, isNote, isOpen, isClose, isLoss⟩ := fields
    refine ⟨_, run, ?_, ?_, ?_, ⟨r, isNumber, isTop, isBottom, isTrigger, isNote, isOpen, isClose, isLoss, ?_, ?_, ?_⟩,
      admits.depth.trans (units.depth.trans keeps.depth), by rw [admits.rod, out, rod],
      admits.circ.trans (units.circ.trans keeps.circ), admits.channels.trans (units.channels.trans keeps.channels),
      admits.gov.trans (units.gov.trans keeps.gov), admits.tables.trans (units.tables.trans keeps.tables)⟩
    · rw [Answer, admits.line]; exact answer
    · rw [intervalT]; exact counter
    · rw [intervalT, counter]; exact opened
    · rw [intervalT]; exact classed
    · rw [intervalT]
      intro i first
      obtain ⟨energy, cls, same, occurred⟩ := unclassed i first
      exact ⟨energy, cls, same, occurs (by decide) (by decide) occurred⟩
    · have released (h : Unlagged r (marked w.toNat o (taken rest s)) v) := unlagged_admitted settled (congrArg RodState.out rod) ticket records
        serial (h.handed (s := s) rfl units.lag event)
      refine ⟨fun none => released (unlagged none), fun pages active => ⟨fun full => ?_, fun room => ?_⟩⟩
      · obtain ⟨h, occurred⟩ := overflow active full
        exact ⟨released h, occurs (by decide) (by decide) occurred⟩
      · have lag : x.lag = { s.lag with queue := s.lag.queue ++ [joining pages r s] } :=
          units.lag.trans (joins active room)
        have joined := joined_admitted settled (congrArg RodState.out rod) ticket records serial lag
        have stage : (joining pages r s).stage =
            if arrivalVolume pages s.depth.hole s ≤ s.circ.pumped then dueStage s else .waiting := by
          rw [joining, isBottom]; rfl
        have leaves : (joining pages r s).stage ≠ .waiting ↔
            arrivalVolume pages s.depth.hole s ≤ s.circ.pumped := by
          rw [stage]
          split <;> simp [*, dueStage]
        intro reckoned arrival due
        refine ⟨fun enters empty reached => ?_, fun no => ?_⟩
        · have entered := joined.1 enters empty (leaves.2 reached)
          rw [stage, if_pos (show arrivalVolume pages s.depth.hole s ≤ _ from reached)] at entered
          exact entered
        · rw [joined.2 fun h => no ⟨h.1, h.2.1, leaves.1 h.2.2⟩, lag, joining, isBottom]
          rfl

end Sys2Proof.Machine

/-! # A SAMPLE frame (R26, R27, R29, R32 to R35) -/

namespace Sys2Proof.Machine

/-! ## Notices are quiet (R27) -/

/-- What a notice does to the line interface's queues and the channels: records have entered at most. -/
structure Noticed (s t : State) : Prop where
  forward : t.line.forward = s.line.forward
  grows : s.line.records <+: t.line.records
  channels : t.channels = s.channels

theorem Noticed.refl (s : State) : Noticed s s := ⟨rfl, List.prefix_refl _, rfl⟩

theorem Noticed.trans {s t u : State} (h : Noticed s t) (k : Noticed t u) : Noticed s u :=
  ⟨k.forward.trans h.forward, h.grows.trans k.grows, k.channels.trans h.channels⟩

theorem Noticed.ite {s t u : State} {c : Prop} [Decidable c] (h : Noticed s t) (k : Noticed s u) :
    Noticed s (if c then t else u) := by
  split <;> assumption

theorem Quiet.noticed {s t : State} (h : Quiet s t) : Noticed s t := ⟨by rw [h.line], h.grows, h.channels⟩

theorem Calm.noticed {s t : State} (h : Calm s t) : Noticed s t := ⟨by rw [h.line], by rw [h.line], h.channels⟩

theorem EventOnly.noticed {s t : State} (h : EventOnly s t) : Noticed s t := h.toQuiet.noticed

section
variable (s : State) (c : Ch)

theorem channelOccur_noticed (cause aux : Nat) : Noticed s (channelOccur c cause aux s) :=
  (occurNat_eventOnly _ _ s).noticed

theorem reportFault_noticed : Noticed s (reportFault c s) := (report_eventOnly _ _ s).noticed

theorem acceptedNotice_quiet (v delta dt : Nat) (before : ValueState) : Quiet s (acceptedNotice c v delta dt before s) := by
  unfold acceptedNotice
  split
  · exact (strokeSample_quiet s _ _ _).trans (depthSample_quiet _)
  · exact (strokeSample_quiet s _ _ _).trans (depthSample_quiet _)
  · exact pressureSample_quiet s v
  · exact evalReturnLow_quiet s
  · exact pitVolumeSample_quiet s v before
  · exact (waterSample_quiet s delta).trans (billWater_quiet _ _)
  · exact depthSample_quiet s
  · exact (blockHeightSample_quiet s).trans (blockSample_quiet _ v)
  · exact depthSample_quiet s
  · exact (fatigueSample_quiet s v dt).trans (intervalTorque_quiet _ v dt)
  · exact depthSample_quiet s
  · exact makeup_quiet s v
  · exact recomputeWeight_quiet s
  · exact handlerSample_quiet s v
  · exact tagSample_quiet s v
  · exact breakouts_quiet _ s

end

/-! ## A channel's turn -/

/-- Two states of a channel differ in their limits at most. -/
def SameButLimits (x y : Channel) : Prop := ∃ a b, y = { x with limit1 := a, limit2 := b }

theorem SameButLimits.refl (x : Channel) : SameButLimits x x := ⟨_, _, rfl⟩

theorem SameButLimits.trans {x y z : Channel} (h : SameButLimits x y) (k : SameButLimits y z) : SameButLimits x z := by
  obtain ⟨a, b, rfl⟩ := h
  obtain ⟨d, e, rfl⟩ := k
  exact ⟨d, e, rfl⟩

theorem withLimit_sameButLimits (x : Channel) (l : LimitNo) (st : LimitState) : SameButLimits x (x.withLimit l st) := by
  cases l <;> exact ⟨_, _, rfl⟩

/-- What the turn of a channel does: to the line interface's queues as a notice, to the channels nothing but to its own
limits. -/
structure Turn (c : Ch) (s t : State) : Prop where
  forward : t.line.forward = s.line.forward
  grows : s.line.records <+: t.line.records
  others : ∀ d : Ch, d ≠ c → t.channels[d] = s.channels[d]
  own : SameButLimits s.channels[c] t.channels[c]

theorem Turn.trans {c : Ch} {s t u : State} (h : Turn c s t) (k : Turn c t u) : Turn c s u :=
  ⟨k.forward.trans h.forward, h.grows.trans k.grows, fun d other => (k.others d other).trans (h.others d other),
    h.own.trans k.own⟩

theorem Noticed.turn {s t : State} (h : Noticed s t) (c : Ch) : Turn c s t :=
  ⟨h.forward, h.grows, fun _ _ => by rw [h.channels], by rw [h.channels]; exact .refl _⟩

section
variable (s : State) (c : Ch)

theorem evalLimit_turn (v : Nat) (l : LimitNo) : Turn c s (evalLimit c v l s) where
  forward := (evalLimit_eventOnly c v l s).noticed.forward
  grows := (evalLimit_eventOnly c v l s).noticed.grows
  others := (evalLimit_onChannel c v l s).channels
  own := by
    rw [evalLimit_channels, if_pos rfl]
    exact withLimit_sameButLimits _ _ _

/-- A channel that has not accepted its value keeps its whole state in its turn. -/
theorem takenEffects_noticed {t : Taken} (notAccepted : ∀ b r v k d j dt, t ≠ .accepted b r v k d j dt) :
    Noticed s (takenEffects c t s) := by
  cases t with
  | short n => exact channelOccur_noticed s c 5 n
  | outOfSet raw => exact channelOccur_noticed s c 3 raw
  | settled before raw clamped =>
    have s2 := (reportFault_noticed s c).trans
      (Noticed.ite (c := clamped = true) (channelOccur_noticed _ c 3 raw) (Noticed.refl _))
    have s3 := s2.trans (Noticed.ite (c := c = 11) (channelOccur_noticed _ c 6 raw) (Noticed.refl _))
    have s4 := s3.trans
      (Noticed.ite (c := before = .lost) (stateNotice_calm _ c .absentSettled).noticed (Noticed.refl _))
    exact s4.trans (Noticed.ite (baselineNotice_calm _ c).noticed (Noticed.refl _))
  | accepted => exact absurd rfl (notAccepted _ _ _ _ _ _ _)

theorem acceptOccurs_noticed (raw : Nat) (clamped : Bool) (jump : Option Nat) :
    Noticed s (acceptOccurs c raw clamped jump s) := by
  have reported := (reportFault_noticed s c).trans
    (Noticed.ite (c := clamped = true) (channelOccur_noticed _ c 3 raw) (Noticed.refl _))
  cases jump with
  | some d => exact reported.trans (channelOccur_noticed _ c 4 d)
  | none => exact reported

theorem takenEffects_turn (t : Taken) : Turn c s (takenEffects c t s) := by
  cases t with
  | short | outOfSet | settled => exact (takenEffects_noticed s c (by simp)).turn c
  | accepted before raw v clamped delta jump dt =>
    have limited : Turn c s (acceptLimits c raw v clamped jump s) :=
      (((acceptOccurs_noticed s c raw clamped jump).turn c).trans (evalLimit_turn _ c v .l1)).trans
        (evalLimit_turn _ c v .l2)
    have noticed := (acceptedNotice_quiet (acceptLimits c raw v clamped jump s) c v delta dt before).noticed
    exact limited.trans
      ((noticed.trans (Noticed.ite (c := before = .live) (Noticed.refl _) (stateNotice_calm _ c .live).noticed)).turn c)

end

/-! ## The turns of a frame, one after another -/

/-- What turns keep of the line interface, and that a channel without a turn keeps its state. -/
theorem turns_kept {op : Ch → State → State} (turn : ∀ c t, Turn c t (op c t)) (l : List Ch) (s : State) :
    (l.foldl (fun t c => op c t) s).line.forward = s.line.forward ∧
      s.line.records <+: (l.foldl (fun t c => op c t) s).line.records ∧
      ∀ d : Ch, d ∉ l → (l.foldl (fun t c => op c t) s).channels[d] = s.channels[d] := by
  induction l generalizing s with
  | nil => exact ⟨rfl, List.prefix_refl _, fun _ _ => rfl⟩
  | cons c rest ih =>
    obtain ⟨forward, grows, channels⟩ := ih (op c s)
    have first := turn c s
    refine ⟨forward.trans first.forward, first.grows.trans grows, fun d new => ?_⟩
    obtain ⟨other, new⟩ := not_or.1 (mt List.mem_cons.2 new)
    exact (channels d new).trans (first.others d other)

/-- A channel is after all turns what its own turn has left, which begins with the state it had. -/
theorem turns_own {op : Ch → State → State} (turn : ∀ c t, Turn c t (op c t)) {l : List Ch} (nodup : l.Nodup) {d : Ch}
    (mem : d ∈ l) (s : State) : ∃ t, t.channels[d] = s.channels[d] ∧
      (l.foldl (fun t c => op c t) s).channels[d] = (op d t).channels[d] := by
  induction l generalizing s with
  | nil => exact absurd mem List.not_mem_nil
  | cons c rest ih =>
    obtain ⟨new, nodup⟩ := List.nodup_cons.1 nodup
    rcases List.mem_cons.1 mem with rfl | later
    · exact ⟨s, rfl, (turns_kept turn rest _).2.2 d new⟩
    · obtain ⟨t, before, after⟩ := ih nodup later (op c s)
      have other : d ≠ c := fun e => new (e ▸ later)
      exact ⟨t, before.trans ((turn c s).others d other), after⟩

section
variable (s : State) (f : Frame)

theorem channelUnitTakes_noticed : (channelUnitTakes f s).line.forward = s.line.forward ∧
    s.line.records <+: (channelUnitTakes f s).line.records := by
  obtain ⟨v, e, -⟩ := foldl_setChannel (fun c => (takeFrom s f c).1) (matchedChannels s f) s
  have kept := turns_kept (op := fun c => takenEffects c (takeFrom s f c).2)
    (fun c t => takenEffects_turn t c _) (noticeSequence s.noticeOrder (matchedChannels s f)) (s.setChannels v)
  unfold channelUnitTakes
  dsimp only
  rw [e]
  exact ⟨kept.1, kept.2.1⟩

/-- A channel that the frame's node and tag do not match keeps its state. -/
theorem channelUnitTakes_unmatched {c : Ch} (unmatched : c ∉ matchedChannels s f) :
    (channelUnitTakes f s).channels[c] = s.channels[c] := by
  obtain ⟨v, e, h⟩ := foldl_setChannel (fun c => (takeFrom s f c).1) (matchedChannels s f) s
  have kept := turns_kept (op := fun c => takenEffects c (takeFrom s f c).2)
    (fun c t => takenEffects_turn t c _) (noticeSequence s.noticeOrder (matchedChannels s f)) (s.setChannels v)
  unfold channelUnitTakes
  dsimp only
  rw [e]
  exact (kept.2.2 c (mt (mem_noticeSequence _ _ c).1 unmatched)).trans ((h c).trans (if_neg unmatched))

/-- A matched channel is what its turn leaves of what it has taken. -/
theorem channelUnitTakes_matched {c : Ch} (matched : c ∈ matchedChannels s f) : ∃ t : State,
    t.channels[c] = (takeFrom s f c).1 ∧
      (channelUnitTakes f s).channels[c] = (takenEffects c (takeFrom s f c).2 t).channels[c] := by
  obtain ⟨v, e, h⟩ := foldl_setChannel (fun c => (takeFrom s f c).1) (matchedChannels s f) s
  obtain ⟨t, before, after⟩ := turns_own (op := fun c => takenEffects c (takeFrom s f c).2)
    (fun c t => takenEffects_turn t c _) (noticeSequence_nodup s.noticeOrder (matchedChannels_nodup s f))
    ((mem_noticeSequence _ _ c).2 matched) (s.setChannels v)
  refine ⟨t, before.trans ((h c).trans (if_pos matched)), ?_⟩
  unfold channelUnitTakes
  dsimp only
  rw [e]
  exact after

end

end Sys2Proof.Machine

/-! # A SAMPLE frame, and its forwarding (R10, R26, R27, R29, R32 to R35) -/

namespace Sys2Proof.Machine

/-! ## What a matched channel takes -/

section
variable {s : State} {f : Frame} {c : Ch} {b : Binding} {w : Word}

theorem mem_matchedChannels : c ∈ matchedChannels s f ↔
    ∃ b, binding s c = some b ∧ b.node = f.node.toNat ∧ b.tag = f.tag.toNat := by
  unfold matchedChannels
  rw [List.mem_filter, and_iff_right (List.mem_finRange c)]
  cases binding s c <;> simp

theorem takeFrom_value (bound : binding s c = some b) (value : f.values[b.index]? = some w) :
    takeFrom s f c = takeRaw s c w.toNat := by
  unfold takeFrom
  rw [bound, Option.bind_some, value]

theorem takeFrom_short (bound : binding s c = some b) (short : f.values[b.index]? = none) :
    takeFrom s f c = (s.channels[c], .short f.values.length) := by
  unfold takeFrom
  rw [bound, Option.bind_some, short]

theorem takeRaw_outOfSet {raw : Nat} (out : channelKind c = .discrete ∧ discreteMax c < raw) :
    takeRaw s c raw = (s.channels[c], .outOfSet raw) := if_pos out

theorem settles_iff (v : ValueState) : v.settles = true ↔ v = .absentUnsettled ∨ v = .lost := by
  cases v <;> decide

theorem takeRaw_settle {raw : Nat} (inSet : ¬(channelKind c = .discrete ∧ discreteMax c < raw))
    (settles : s.channels[c].state = .absentUnsettled ∨ s.channels[c].state = .lost) :
    takeRaw s c raw = settle s c raw :=
  (if_neg inSet).trans (if_pos ((settles_iff _).2 settles))

theorem takeRaw_accept {raw : Nat} (inSet : ¬(channelKind c = .discrete ∧ discreteMax c < raw))
    (settled : ¬(s.channels[c].state = .absentUnsettled ∨ s.channels[c].state = .lost)) :
    takeRaw s c raw = accept s c raw :=
  (if_neg inSet).trans (if_neg (mt (settles_iff _).1 settled))

theorem engineering_analog {raw : Nat} (kind : channelKind c = .analog) : engineering s c raw = calibrateOn s c raw := by
  rw [engineering, kind]

theorem engineering_raw {raw : Nat} (kind : channelKind c ≠ .analog) : engineering s c raw = (raw, false) := by
  unfold engineering
  split
  · next h => exact absurd h kind
  · rfl

/-- What a channel settles, accepts or discards: its next state is fixed but for its limits (R29, R32, R33, R35). -/
def TakenTo (s : State) (c : Ch) (w : Word) (x y : Channel) : Prop :=
  if channelKind c = .discrete ∧ discreteMax c < w.toNat then y = x
  else if x.state = .absentUnsettled ∨ x.state = .lost then
    y.state = .absentSettled ∧ y.value = none ∧ y.mark = false ∧ y.takenAt = s.now ∧
      y.baseline = (if channelKind c = .counter then some w.toNat else none)
  else
    y.state = .live ∧ y.takenAt = s.now ∧
      y.baseline = (if channelKind c = .counter then some w.toNat else none) ∧
      (if channelKind c = .analog then y.value = some (calibrateOn s c w.toNat).1 ∧
          y.mark = (calibrateOn s c w.toNat).2
        else y.value = some w.toNat ∧ y.mark = false)

/-- An accepted value as the channel's kind gives it. -/
theorem accept_value (s : State) (c : Ch) (raw : Nat) :
    if channelKind c = .analog then (accept s c raw).1.value = some (calibrateOn s c raw).1 ∧
        (accept s c raw).1.mark = (calibrateOn s c raw).2
      else (accept s c raw).1.value = some raw ∧ (accept s c raw).1.mark = false := by
  show if _ then some (engineering s c raw).1 = _ ∧ (engineering s c raw).2 = _
    else some (engineering s c raw).1 = _ ∧ (engineering s c raw).2 = _
  split
  · next kind => rw [engineering_analog kind]; exact ⟨rfl, rfl⟩
  · next kind => rw [engineering_raw kind]; exact ⟨rfl, rfl⟩

theorem accept_baseline (s : State) (c : Ch) (raw : Nat) :
    (accept s c raw).1.baseline = if channelKind c = .counter then some raw else none := by
  show (if (channelKind c == .counter) = true then _ else _) = _
  simp only [beq_iff_eq]

/-- After its turn a channel is as what it has taken fixes it. -/
theorem channelUnitTakes_takenTo (bound : binding s c = some b) (node : b.node = f.node.toNat)
    (tag : b.tag = f.tag.toNat) (value : f.values[b.index]? = some w) :
    TakenTo s c w s.channels[c] (channelUnitTakes f s).channels[c] := by
  obtain ⟨t, before, after⟩ := channelUnitTakes_matched s f (mem_matchedChannels.2 ⟨b, bound, node, tag⟩)
  rw [takeFrom_value bound value] at before after
  unfold TakenTo
  rw [after]
  split
  · next out =>
    rw [takeRaw_outOfSet out] at before ⊢
    rw [(takenEffects_noticed t c (by simp)).channels, before]
  · next inSet =>
    split
    · next settles =>
      rw [takeRaw_settle inSet settles] at before ⊢
      rw [(takenEffects_noticed t c (by simp [settle])).channels, before]
      exact ⟨rfl, rfl, rfl, rfl, rfl⟩
    · next settled =>
      rw [takeRaw_accept inSet settled] at before ⊢
      obtain ⟨l1, l2, own⟩ := (takenEffects_turn t c (accept s c w.toNat).2).own
      rw [own, before]
      exact ⟨rfl, rfl, accept_baseline s c w.toNat, accept_value s c w.toNat⟩

/-- A channel that is not matched, or finds the frame short, keeps its whole state (R26). -/
theorem channelUnitTakes_untaken (untaken : ∀ b, binding s c = some b → b.node = f.node.toNat → b.tag = f.tag.toNat →
    f.values[b.index]? = none) : (channelUnitTakes f s).channels[c] = s.channels[c] := by
  by_cases matched : c ∈ matchedChannels s f
  · obtain ⟨b, bound, node, tag⟩ := mem_matchedChannels.1 matched
    obtain ⟨t, before, after⟩ := channelUnitTakes_matched s f matched
    rw [takeFrom_short bound (untaken b bound node tag)] at before after
    rw [after, (takenEffects_noticed t c (by simp)).channels, before]
  · exact channelUnitTakes_unmatched s f matched

end

/-! ## The frame's step -/

/-- The end of a frame's step leaves the channels and the forward FIFO; records enter at the end of the queue. -/
theorem admittedJudged_noticed (s u : State) : Noticed u (admittedJudged s u) := by
  have entered := Noticed.ite (c := (waiting u).all (isWaiting s) = true) (Noticed.refl u)
    (admitRecords_admits (admissionOrder.filter fun p => u.line.judged.contains p) u).toQuiet.noticed
  exact ⟨entered.forward, entered.grows, entered.channels⟩

/-- What has occurred stands over a longer stretch. -/
theorem Occurred.stands {src : Source} {d : BitVec 32} {a : Bool} {s u t : State} (h : Occurred src d a u t)
    (before : s.line.records <+: u.line.records) (after : u.line.records <+: t.line.records) : Stands src a s t := by
  obtain ⟨-, -, applied, pending | ⟨-, -, frame, new, event⟩⟩ := h
  · exact ⟨applied, .inl pending.1⟩
  · refine ⟨applied, .inr ⟨frame, ?_, _, _, _, event⟩⟩
    rw [newFrames_trans before after]
    exact List.mem_append_right _ new

theorem takenTo_congr {s u : State} (now : u.now = s.now) (tables : u.tables = s.tables) {c : Ch} {w : Word} {x y : Channel}
    (h : TakenTo u c w x y) : TakenTo s c w x y := by
  have calibrates : calibrateOn u c w.toNat = calibrateOn s c w.toNat := by
    simp only [calibrateOn, rawLo, rawHi, engLo, engHi, activePages, activeCopy, tables]
  unfold TakenTo at *
  rwa [now, calibrates] at h

theorem binding_congr {s u : State} (tables : u.tables = s.tables) (c : Ch) : binding u c = binding s c := by
  simp only [binding, activePages, activeCopy, tables]

/-- Settles O7: the channel unit takes the frame in turns that leave every channel to itself, then the frame is offered
to the forward FIFO. -/
theorem sampleFrameFeedsChannels : Obligations.SampleFrameFeedsChannels := by
  intro s f few kind inLine
  obtain ⟨u, linked⟩ : ∃ u, u = linkFrame .field (beginJudging s) := ⟨_, rfl⟩
  have unit := linkFrame_eventOnly .field (beginJudging s)
  obtain ⟨d, i, line⟩ := linkFrame_line (s := s) .field
  rw [← linked] at unit line
  have taken := channelUnitTakes_noticed u f
  obtain ⟨v, unitTakes⟩ : ∃ v, v = channelUnitTakes f u := ⟨_, rfl⟩
  have forward : v.line.forward = s.line.forward := by rw [unitTakes, taken.1, line]; rfl
  have grows : s.line.records <+: v.line.records := by
    have same : u.line.records = s.line.records := by rw [line]; rfl
    rw [unitTakes, ← same]
    exact taken.2
  have disposed : wellFormedFrame .field f (beginJudging s) = offerForward f v := by
    rw [unitTakes, linked]
    refine (fieldDispose_inLine ?_).trans (congrArg (offerForward f) (if_pos kind))
    rw [← linked, line]
    exact inLine
  have ended := admittedJudged_noticed s (offerForward f v)
  have offered : (offerForward f v).channels = v.channels :=
    iteInduction (motive := fun x : State => x.channels = v.channels) (fun _ => rfl)
      fun _ => (occurNat_eventOnly _ _ v).channels
  refine ⟨_, exec_frameArrival few disposed, fun c b w bound node tag value => ?_, fun c untaken => ?_, fun room => ?_,
    fun full => ?_⟩
  · rw [ended.channels, offered, unitTakes]
    have own := channelUnitTakes_takenTo ((binding_congr unit.tables c).trans bound) node tag value
    rw [unit.channels] at own
    exact takenTo_congr unit.now unit.tables own
  · rw [ended.channels, offered, unitTakes, channelUnitTakes_untaken, unit.channels]
    · rfl
    · exact fun b bound => untaken b ((binding_congr unit.tables c).symm.trans bound)
  · rw [ended.forward, offerForward_room (forward ▸ room), State.setLine_line, forward]
  · rw [offerForward_full (forward ▸ full)] at ended ⊢
    have occurs := occurNat_eventOnly srcForwardOverrun 0 v
    have occurred : Occurred srcForwardOverrun (BitVec.ofNat 32 0) true v
        (admittedJudged s (occurNat srcForwardOverrun 0 v)) :=
      (occurred_occurNat (u := v) 0 (by decide) ⟨_, rfl⟩ rfl).admittedJudged (by decide) (by decide)
        occurs.noticed.grows s
    refine ⟨(ended.forward.trans occurs.noticed.forward).trans forward, ?_,
      occurred.stands grows (occurs.noticed.grows.trans ended.grows)⟩
    exact occurred.2.1

end Sys2Proof.Machine
